-- ==== Sys2Proof/Word.lean ====
section
/-! DEFINITION. The bit-vector widths of IHXC (00_scope.md R5, R6): bytes and characters of 8 bits, addresses of
16 bits, host registers of 32 bits, hex digits of 4 bits. -/

namespace Sys2Proof

/-- A byte of the memory image, a record byte or a character (00_scope.md R5 `CELL_BITS`, R10). -/
abbrev Byte := BitVec 8

/-- A 16-bit address (00_scope.md R5 `ADDR_BITS`). -/
abbrev Addr := BitVec 16

/-- A host register or a command word (00_scope.md R5 `CMD_BITS`). -/
abbrev Word := BitVec 32

/-- The value of one hexadecimal digit. -/
abbrev Nib := BitVec 4

end Sys2Proof
end

