-- ==== Sys2Proof/Syntax.lean ====
section
/-! DEFINITION. The instructions of IHXC: the eight commands a host writes to CTRL (30_encoding.md R82) and the two
record types the parser executes (30_encoding.md R76). One constructor per row of spec/opcode_table.json. -/

namespace Sys2Proof

/-- The rows of spec/opcode_table.json. An operand has the width of its field, so every term is encodable. -/
inductive Instr where
  /-- NOP, 43_control.md R192. -/
  | nop
  /-- CK_CLR, 40_checksum.md R101. -/
  | ckClr
  /-- CK_ADD with its BYTE field, 40_checksum.md R102. -/
  | ckAdd (byte : Byte)
  /-- FRM_DATA, 41_framer.md R122. -/
  | frmData
  /-- FRM_END, 41_framer.md R123. -/
  | frmEnd
  /-- FRM_ALL, 41_framer.md R124. -/
  | frmAll
  /-- PRS_LINE, 42_parser.md R161. -/
  | prsLine
  /-- PRS_READ, 42_parser.md R162. -/
  | prsRead
  /-- REC_DATA, a record header of type 00 with its LL and AAAA, 42_parser.md R164. -/
  | recData (ll : Byte) (aaaa : Addr)
  /-- REC_EOF, a record header of type 01 with its LL and AAAA, 42_parser.md R163. -/
  | recEof (ll : Byte) (aaaa : Addr)
  deriving DecidableEq, Repr

/-- The fields of one record `:LLAAAATTDD...DDCC` (30_encoding.md R70, R71), as bytes. -/
structure Record where
  ll : Byte
  aaaa : Addr
  tt : Byte
  data : List Byte
  cc : Byte
  deriving DecidableEq, Repr

end Sys2Proof
end

