-- ==== Sys2Proof/Config.lean ====
section
/-! DEFINITION. The three parameters 00_scope.md R5 says a model takes as configuration fields, with this hardware's
values as defaults. State carries one Config and no step changes it (assumption log 14). -/

namespace Sys2Proof

/-- `LEN_BITS`, `WS` and `NEWLINE` of 00_scope.md R5; the defaults are the values this hardware takes (92 D11, D12, D13). -/
structure Config where
  /-- Width of the framer's length argument; the LEN register has 32 bits, so at most 32 have an effect (10_state.md R24). -/
  lenBits : Nat := 32
  /-- The whitespace characters skipped before a start marker (30_encoding.md R80). -/
  ws : List Byte := [0x09, 0x0A, 0x0B, 0x0C, 0x0D, 0x20]
  /-- The character that ends a data record line (41_framer.md R120). -/
  newline : Byte := 0x0A
  deriving DecidableEq, Repr

/-- The parameter values this hardware takes (00_scope.md R5). -/
def Config.ihxc : Config := {}

end Sys2Proof
end

