-- ==== Sys2Proof/Machine/Checksum.lean ====
section
/-! DEFINITION. The checksum function (40_checksum.md R100, R104): pure, shared by no state. -/

namespace Sys2Proof.Machine

/-- `sum8` of 40_checksum.md R100: the exact sum of the bytes, reduced mod 256 once; 0 for the empty sequence. -/
def sum8 (s : List Byte) : Byte := BitVec.ofNat 8 (s.map BitVec.toNat).sum

/-- `cks` of 40_checksum.md R100, the source's `compute(bytes)`: `(256 - sum8 s) mod 256`. -/
def cks (s : List Byte) : Byte := -(sum8 s)

/-- The validity predicate of 40_checksum.md R104 on a record's bytes, CC included. -/
def validBytes (r : List Byte) : Bool := sum8 r == 0

end Sys2Proof.Machine
end

