-- ==== Sys2Proof/Machine/Operands.lean ====
section
/-! DEFINITION. Every operand form of IHXC: characters and hex digits on input and output (30_encoding.md R73, R74),
the 16-bit address assembled from two bytes (R75), whitespace (R80), the end-of-file literal (R78), the fields of the
host registers ADDR and LEN (10_state.md R24, R27), and the byte count of a framer chunk (41_framer.md R121). -/

namespace Sys2Proof.Machine

/-- ':' (00_scope.md R10). -/
def chColon : Byte := 0x3A

/-- `hexval` of 30_encoding.md R73, defined only on a hex digit: '0'..'9', 'a'..'f', 'A'..'F'. -/
def hexval (c : Byte) : Option Nib :=
  if 0x30 ≤ c.toNat ∧ c.toNat ≤ 0x39 then some (BitVec.ofNat 4 (c.toNat - 0x30))
  else if 0x61 ≤ c.toNat ∧ c.toNat ≤ 0x66 then some (BitVec.ofNat 4 (c.toNat - 0x61 + 10))
  else if 0x41 ≤ c.toNat ∧ c.toNat ≤ 0x46 then some (BitVec.ofNat 4 (c.toNat - 0x41 + 10))
  else none

/-- `is_hex` of 30_encoding.md R73. -/
def isHex (c : Byte) : Bool := (hexval c).isSome

/-- The byte of a hex pair: the first digit is the more significant one (30_encoding.md R73). -/
def pairByte (hi lo : Nib) : Byte := hi ++ lo

/-- `digit` of 30_encoding.md R74: one lowercase hex digit. -/
def digit (v : Nib) : Byte :=
  if v.toNat < 10 then BitVec.ofNat 8 (0x30 + v.toNat) else BitVec.ofNat 8 (0x61 + v.toNat - 10)

/-- `b[7:4]`. -/
def hiNib (b : Byte) : Nib := b.extractLsb' 4 4

/-- `b[3:0]`. -/
def loNib (b : Byte) : Nib := b.extractLsb' 0 4

/-- `a[15:8]`. -/
def hiByte (a : Addr) : Byte := a.extractLsb' 8 8

/-- `a[7:0]`. -/
def loByte (a : Addr) : Byte := a.extractLsb' 0 8

/-- `{ahi, alo}`, the big-endian address assembly of 30_encoding.md R75. -/
def addrOf (ahi alo : Byte) : Addr := ahi ++ alo

/-- `hex2` of 30_encoding.md R74: always two characters. -/
def hex2 (b : Byte) : List Byte := [digit (hiNib b), digit (loNib b)]

/-- `hex4` of 30_encoding.md R74: always four characters. -/
def hex4 (a : Addr) : List Byte := hex2 (hiByte a) ++ hex2 (loByte a)

/-- `is_ws` of 30_encoding.md R80: membership in the configured set WS. -/
def isWs (cfg : Config) (c : Byte) : Bool := cfg.ws.contains c

/-- The end-of-file literal `:00000001FF`, uppercase FF, no newline (30_encoding.md R78, 90_conflicts.md C4). -/
def eofLiteral : List Byte := [0x3A, 0x30, 0x30, 0x30, 0x30, 0x30, 0x30, 0x30, 0x31, 0x46, 0x46]

/-- `zext_32(w[LEN_BITS-1:0])`, the part of a word the LEN register holds (10_state.md R24, R27). -/
def lenField (cfg : Config) (w : Word) : Word := BitVec.ofNat 32 (w.toNat % 2 ^ cfg.lenBits)

/-- `w[15:0]`, the part of a word the ADDR register holds (10_state.md R24). -/
def addrField (w : Word) : Addr := w.extractLsb' 0 16

/-- `min(16, n)`, the byte count of the next chunk (41_framer.md R121, R122). -/
def chunkLen (rem : Word) : BitVec 5 := BitVec.ofNat 5 (min 16 rem.toNat)

/-- Register numbers of 10_state.md R24. -/
def regCtrl : BitVec 3 := 0
def regStatus : BitVec 3 := 1
def regAddr : BitVec 3 := 2
def regLen : BitVec 3 := 3
def regCkAcc : BitVec 3 := 4
def regCkOut : BitVec 3 := 5

end Sys2Proof.Machine
end

