-- ==== Sys2Proof/WellFormed.lean ====
section
/-! DEFINITION. Well-formedness of the syntax: every instruction term is encodable by its field widths; a record is
well formed when its LL, TT and CC agree with its data (30_encoding.md R70, R76, R79; 40_checksum.md R104); a
configuration when it fits the register file and the record syntax (00_scope.md R5). -/

namespace Sys2Proof

/-- Every operand of Instr has exactly its field's width (30_encoding.md R71, R81), so no term is ill formed. -/
def Instr.wf : Instr → Bool
  | .nop => true
  | .ckClr => true
  | .ckAdd _ => true
  | .frmData => true
  | .frmEnd => true
  | .frmAll => true
  | .prsLine => true
  | .prsRead => true
  | .recData _ _ => true
  | .recEof _ _ => true

/-- The record bytes before CC (30_encoding.md R71). -/
def Record.bodyBytes (r : Record) : List Byte :=
  [r.ll, Machine.hiByte r.aaaa, Machine.loByte r.aaaa, r.tt] ++ r.data

/-- All n + 5 record bytes (30_encoding.md R71). -/
def Record.bytes (r : Record) : List Byte := r.bodyBytes ++ [r.cc]

/-- LL is the number of data bytes (30_encoding.md R70). -/
def Record.lengthOk (r : Record) : Bool := r.data.length == r.ll.toNat

/-- TT is Data or EndOfFile (30_encoding.md R76). -/
def Record.typeOk (r : Record) : Bool := r.tt == 0 || r.tt == 1

/-- The 8-bit sum of the record bytes is 0 (30_encoding.md R79, 40_checksum.md R104). -/
def Record.sumOk (r : Record) : Bool := Machine.validBytes r.bytes

/-- A well-formed record: the three checks together. -/
def Record.wf (r : Record) : Bool := r.lengthOk && r.typeOk && r.sumOk

/-- LEN_BITS is a width of the 32-bit LEN register (10_state.md R24). -/
def Config.lenOk (c : Config) : Bool := 1 ≤ c.lenBits && c.lenBits ≤ 32

/-- The start marker is not whitespace, or no record could begin (42_parser.md R151, R152). -/
def Config.startOk (c : Config) : Bool := !Machine.isWs c Machine.chColon

/-- The framer's newline is skipped before the next record (30_encoding.md R72). -/
def Config.newlineOk (c : Config) : Bool := Machine.isWs c c.newline

/-- A configuration under which the two pipelines fit each other: the three checks together. -/
def Config.wf (c : Config) : Bool := c.lenOk && c.startOk && c.newlineOk

end Sys2Proof
end

