-- ==== Sys2Proof/Decode.lean ====
section
/-! DEFINITION. Decoding: the command word of CTRL (30_encoding.md R81 to R83) and the record header (R76, R77),
each total, each rejecting by name; then the encoder, written from the same rows. The two are separate opcode spaces
(assumption log 4). -/

namespace Sys2Proof

/-- Why a word is no instruction of its space. -/
inductive DecodeError where
  /-- The command word matches no row of 30_encoding.md R82 (ILLEGAL, R83). -/
  | illegalCommand
  /-- The record type is neither 0x00 nor 0x01 (30_encoding.md R77). -/
  | illegalType
  deriving DecidableEq, Repr

/-- A row of spec/opcode_table.json: a word selects it when `w & mask = value` (30_encoding.md R82). -/
structure OpRow where
  mnemonic : String
  mask : Word
  value : Word
  deriving DecidableEq, Repr

/-- The row matches the word. -/
def OpRow.hits (r : OpRow) (w : Word) : Bool := w &&& r.mask == r.value

def rowNop : OpRow := ⟨"NOP", 0xFFFFFFFF, 0x00000000⟩
def rowCkClr : OpRow := ⟨"CK_CLR", 0xFFFFFFFF, 0x00000001⟩
def rowCkAdd : OpRow := ⟨"CK_ADD", 0xFFFF00FF, 0x00000002⟩
def rowFrmData : OpRow := ⟨"FRM_DATA", 0xFFFFFFFF, 0x00000003⟩
def rowFrmEnd : OpRow := ⟨"FRM_END", 0xFFFFFFFF, 0x00000004⟩
def rowFrmAll : OpRow := ⟨"FRM_ALL", 0xFFFFFFFF, 0x00000005⟩
def rowPrsLine : OpRow := ⟨"PRS_LINE", 0xFFFFFFFF, 0x00000006⟩
def rowPrsRead : OpRow := ⟨"PRS_READ", 0xFFFFFFFF, 0x00000007⟩
def rowRecData : OpRow := ⟨"REC_DATA", 0x000000FF, 0x00000000⟩
def rowRecEof : OpRow := ⟨"REC_EOF", 0x000000FF, 0x00000001⟩

/-- The rows of 30_encoding.md R82. -/
def commandRows : List OpRow :=
  [rowNop, rowCkClr, rowCkAdd, rowFrmData, rowFrmEnd, rowFrmAll, rowPrsLine, rowPrsRead]

/-- The rows of 30_encoding.md R76. -/
def recordRows : List OpRow := [rowRecData, rowRecEof]

/-- The BYTE field, bits 15 to 8 of a command word (30_encoding.md R81). -/
def byteField (w : Word) : Byte := w.extractLsb' 8 8

/-- Command decode (30_encoding.md R82, R83): total, every word is one of the eight commands or ILLEGAL. -/
def decodeCommand (w : Word) : Except DecodeError Instr :=
  if rowNop.hits w then .ok .nop
  else if rowCkClr.hits w then .ok .ckClr
  else if rowCkAdd.hits w then .ok (.ckAdd (byteField w))
  else if rowFrmData.hits w then .ok .frmData
  else if rowFrmEnd.hits w then .ok .frmEnd
  else if rowFrmAll.hits w then .ok .frmAll
  else if rowPrsLine.hits w then .ok .prsLine
  else if rowPrsRead.hits w then .ok .prsRead
  else .error .illegalCommand

/-- LL, AAAA and TT of a record header `{LL, AH, AL, TT}` read as one 32-bit value (30_encoding.md R76). -/
def headerLl (h : Word) : Byte := h.extractLsb' 24 8
def headerAddr (h : Word) : Addr := h.extractLsb' 8 16
def headerTt (h : Word) : Byte := h.extractLsb' 0 8

/-- The header of its fields: LL in bits 31 to 24, AAAA in 23 to 8, TT in 7 to 0 (30_encoding.md R76). -/
def headerOf (ll : Byte) (aaaa : Addr) (tt : Byte) : Word := ll ++ aaaa ++ tt

/-- Record-type decode (30_encoding.md R76, R77): total, every TT from 0x02 to 0xFF is rejected. -/
def decodeHeader (h : Word) : Except DecodeError Instr :=
  if rowRecData.hits h then .ok (.recData (headerLl h) (headerAddr h))
  else if rowRecEof.hits h then .ok (.recEof (headerLl h) (headerAddr h))
  else .error .illegalType

/-- The instruction is a command of CTRL, not a record type. -/
def Instr.isCommand : Instr → Bool
  | .nop => true
  | .ckClr => true
  | .ckAdd _ => true
  | .frmData => true
  | .frmEnd => true
  | .frmAll => true
  | .prsLine => true
  | .prsRead => true
  | .recData _ _ => false
  | .recEof _ _ => false

/-- The word of an instruction, in its own space (30_encoding.md R81, R82 for a command, R76 for a record header). -/
def encode : Instr → Word
  | .nop => 0x00000000
  | .ckClr => 0x00000001
  | .ckAdd b => (0 : BitVec 16) ++ b ++ (0x02 : Byte)
  | .frmData => 0x00000003
  | .frmEnd => 0x00000004
  | .frmAll => 0x00000005
  | .prsLine => 0x00000006
  | .prsRead => 0x00000007
  | .recData ll aaaa => headerOf ll aaaa 0x00
  | .recEof ll aaaa => headerOf ll aaaa 0x01

/-- The decoder of the instruction's own space: CTRL for a command, the header of a record for a record type. -/
def decodeFor (i : Instr) (w : Word) : Except DecodeError Instr :=
  if i.isCommand then decodeCommand w else decodeHeader w

/-- The row of spec/opcode_table.json that an instruction belongs to. -/
def Instr.row : Instr → OpRow
  | .nop => rowNop
  | .ckClr => rowCkClr
  | .ckAdd _ => rowCkAdd
  | .frmData => rowFrmData
  | .frmEnd => rowFrmEnd
  | .frmAll => rowFrmAll
  | .prsLine => rowPrsLine
  | .prsRead => rowPrsRead
  | .recData _ _ => rowRecData
  | .recEof _ _ => rowRecEof

/-- DESIGN CHOICE (assumption log 4): the host's one decoder name over two opcode spaces. A 32-bit word is read as a
command first and as a record header when it is no command. -/
def decodeWord (w : Word) : Except DecodeError Instr :=
  match decodeCommand w with
  | .ok i => .ok i
  | .error _ => decodeHeader w

/-- The instruction read from `w` as spec/opcode_table.json numbers its bits; every word of IHXC has 32 bits
(30_encoding.md R81). -/
def decodeTableWord (nbits w : Nat) : Option Instr :=
  if nbits ≤ 32 then
    match decodeWord (BitVec.ofNat 32 (w % 2 ^ nbits)) with
    | .ok i => some i
    | .error _ => none
  else none

end Sys2Proof
end

