-- ==== Sys2Proof/Machine/Memory.lean ====
section
/-! DEFINITION. The memory image of 20_memory.md R50: 65536 byte cells, held as the list of the cells that differ from
what an unlisted cell reads as, addresses strictly rising. -/

namespace Sys2Proof.Machine

/-- The memory image as data: (address, byte) pairs in one canonical form (Memory.wf). -/
abbrev Memory := List Host.Cell

/-- What a cell reads that nothing has written. DESIGN CHOICE (assumption log 6): the spec gives no contents; every image
is still a value of Memory, since any byte other than this one is listed. -/
def Memory.unlisted : Byte := 0

/-- The canonical form: addresses strictly rising, all below 65536, no cell equal to what an unlisted one reads. -/
abbrev Memory.wf (m : Memory) : Prop :=
  m.Pairwise (fun x y => x.1 < y.1) ∧ ∀ c ∈ m, c.1 < 65536 ∧ c.2 ≠ Memory.unlisted

/-- The byte under a key. -/
def Memory.find : Memory → Nat → Byte
  | [], _ => Memory.unlisted
  | (k, v) :: m, a => if k = a then v else Memory.find m a

/-- The list with the byte under a key replaced; storing the unlisted value removes the entry. -/
def Memory.put : Memory → Nat → Byte → Memory
  | [], a, v => if v = Memory.unlisted then [] else [(a, v)]
  | (k, w) :: m, a, v =>
    if a < k then (if v = Memory.unlisted then (k, w) :: m else (a, v) :: (k, w) :: m)
    else if a = k then (if v = Memory.unlisted then m else (a, v) :: m)
    else (k, w) :: Memory.put m a v

/-- `MemRead(a, 1)` on the image: total over the 16-bit addresses (10_state.md R34). -/
def Memory.read (m : Memory) (a : Addr) : Byte := m.find a.toNat

/-- `MemWrite(a, 1, v)` on the image: exactly one cell changes (10_state.md R35). -/
def Memory.write (m : Memory) (a : Addr) (v : Byte) : Memory := m.put a.toNat v

/-- The image after writes in list order. -/
def Memory.writeAll : Memory → List (Addr × Byte) → Memory
  | m, [] => m
  | m, (a, v) :: cs => Memory.writeAll (m.write a v) cs

end Sys2Proof.Machine
end

