-- ==== Sys2Proof/Machine/State.lean ====
section
/-! DEFINITION. The whole state as plain data: IHXC's registers (10_state.md R24 to R30), the collaborators behind the
three ports (R33 to R37), the moves still to be made by host, platform and IHXC (R20, R21), and the reasons a step can
stop. State.reset is the state right after reset (R38, 70_reset_and_hazards.md R230). -/

namespace Sys2Proof.Machine

/-- The failure kinds of 60_exceptions.md R200; codes 9 to 15 are never produced. -/
inductive FailKind where
  | none
  | badStart
  | badHex
  | badType
  | badChecksum
  | endOfInput
  | inputFault
  | emitFault
  | illegalCmd
  deriving DecidableEq, Repr

/-- OP, the operation that runs (10_state.md R30). -/
inductive Op where
  | none
  | frmData
  | frmEnd
  | frmAll
  | prsLine
  | prsRead
  deriving DecidableEq, Repr

/-- P_PH, the phase of the record state machine (10_state.md R28, 42_parser.md R165). -/
inductive PPhase where
  | idle
  | seek
  | len
  | adrh
  | adrl
  | type
  | data
  | cks
  deriving DecidableEq, Repr

/-- P_MODE (10_state.md R28). -/
inductive PMode where
  | line
  | read
  deriving DecidableEq, Repr

/-- F_PH (10_state.md R29). -/
inductive FPhase where
  | idle
  | line
  | eoflit
  deriving DecidableEq, Repr

/-- F_MODE (10_state.md R29). -/
inductive FMode where
  | data
  | fin
  | all
  deriving DecidableEq, Repr

/-- The stored fields of STATUS (10_state.md R25); CKZ is live and has no storage. -/
structure Status where
  busy : Bool
  done : Bool
  ok : Bool
  eof : Bool
  err : FailKind
  drop : Bool
  deriving DecidableEq, Repr

/-- The framer's internal registers (10_state.md R29); F_MODE END is `fin`. F_REM is LEN_BITS wide, held in 32 bits. -/
structure Framer where
  mode : FMode
  ph : FPhase
  addr : Addr
  rem : Word
  k : BitVec 5
  pos : BitVec 6
  acc : Byte
  d : Byte
  deriving DecidableEq, Repr

/-- The parser's internal registers (10_state.md R28). -/
structure Parser where
  ph : PPhase
  nib : Bool
  hi : Nib
  len : Byte
  addr : Addr
  type : Byte
  cnt : Byte
  acc : Byte
  mode : PMode
  deriving DecidableEq, Repr

/-- The ports (10_state.md R33). -/
inductive Port where
  | mem
  | inp
  | out
  deriving DecidableEq, Repr

/-- What the sink answers to an `Emit` (10_state.md R36). -/
inductive OutAnswer where
  | ok
  | fault
  deriving DecidableEq, Repr

/-- What the source answers to a `Consume` (10_state.md R37). -/
inductive InAnswer where
  | chr (c : Byte)
  | eoi
  | fault
  deriving DecidableEq, Repr

/-- A collaborator's choice for one call: it serves it, it faults, or it never answers (10_state.md R36, R37;
93_implementation_defined.md 2, 4, 5). A FREE VALUE: statements hold for every list of draws (assumption log 7). -/
inductive Draw where
  | ok
  | fault
  | silent
  deriving DecidableEq, Repr

/-- The memory image's choice for one call: it serves it or never answers; it never fails (10_state.md R34, R35). That MEM
is among the ports that may never answer (43_control.md R196 and 93_implementation_defined.md 5 say "a port", R34 and R35
say only that MEM never fails) is the model's DESIGN CHOICE (assumption log 22). A FREE VALUE: statements hold for every
list of draws or name the lists they need (assumption log 7). -/
inductive MemDraw where
  | ok
  | silent
  deriving DecidableEq, Repr

/-- One port transaction as performed (00_scope.md R9). -/
inductive Transaction where
  | memRead (a : Addr) (v : Byte)
  | memWrite (a : Addr) (v : Byte)
  | emit (c : Byte) (r : OutAnswer)
  | consume (r : InAnswer)
  deriving DecidableEq, Repr

/-- The three collaborators (10_state.md R22, R33 to R37): none of this is IHXC's own state. -/
structure Collab where
  /-- The memory image (20_memory.md R50). -/
  mem : Memory
  /-- The image's answers to come; a call beyond the list is served. -/
  memDraws : List MemDraw
  /-- MEM, IN, OUT are connected (70_reset_and_hazards.md R233). -/
  memUp : Bool
  inUp : Bool
  outUp : Bool
  /-- The characters no command has consumed yet (10_state.md R37, R39). -/
  inText : List Byte
  /-- The characters that follow `inText`, repeated for ever: `[]` for a stream that ends, else a stream that never ends
  (43_control.md R196, "an endless run of whitespace"). That an endless stream repeats a list is the model's DESIGN CHOICE
  (assumption log 23). -/
  inLoop : List Byte
  /-- How many characters have been consumed: the input position (43_control.md R196). -/
  inPos : Nat
  /-- The source's answers to come; a call beyond the list is served. -/
  inDraws : List Draw
  /-- The output text so far, first character first (10_state.md R36). -/
  outText : List Byte
  /-- The sink's answers to come; a call beyond the list is served. -/
  outDraws : List Draw
  /-- The transactions performed so far, first one first (MODEL's own field, assumption log 15). -/
  trace : List Transaction
  deriving DecidableEq, Repr

/-- What the platform does to the collaborators between operations (70_reset_and_hazards.md R233; 95 program P2). -/
inductive PlatformMove where
  /-- Connect or disconnect MEM, IN and OUT. -/
  | connect (mem inp out : Bool)
  /-- Offer a memory image that holds these cells and Memory.unlisted elsewhere, with its answers to come. -/
  | image (cells : List (Addr × Byte)) (draws : List MemDraw)
  /-- Another agent stores one byte in the image. -/
  | poke (a : Addr) (v : Byte)
  /-- Offer an input: a text, what repeats for ever after it, and the source's answers to come; the position starts at 0. -/
  | input (text loop : List Byte) (draws : List Draw)
  /-- Offer a sink that already holds a text, with its answers to come. -/
  | output (text : List Byte) (draws : List Draw)
  deriving DecidableEq, Repr

/-- One move of one agent (10_state.md R20, R21). -/
inductive Move where
  /-- The host writes a word to a register (43_control.md R195). -/
  | write (r : BitVec 3) (w : Word)
  /-- The host reads a register (43_control.md R194). -/
  | read (r : BitVec 3)
  /-- The host repeats `rd STATUS` until BUSY = 0 (30_encoding.md R84, 43_control.md R196). -/
  | wait
  /-- The host asserts reset (70_reset_and_hazards.md R230). -/
  | reset
  /-- IHXC takes one step (10_state.md R21). -/
  | ihxc
  /-- The platform acts on the collaborators. -/
  | platform (p : PlatformMove)
  deriving DecidableEq, Repr

structure State where
  /-- The parameters of 00_scope.md R5; no step changes them. -/
  cfg : Config
  /-- STATUS (10_state.md R25). -/
  status : Status
  /-- ADDR[15:0] (10_state.md R24, R27). -/
  addr : Addr
  /-- LEN (10_state.md R24, R27). -/
  len : Word
  /-- CK_ACC (10_state.md R26). -/
  ckAcc : Byte
  /-- OP (10_state.md R30). -/
  op : Op
  /-- The port that has been offered a transaction of the running operation and never answers it (43_control.md R196;
  MODEL's own field, assumption log 8). -/
  waiting : Option Port
  /-- The framer's internal registers (10_state.md R29). -/
  frm : Framer
  /-- The parser's internal registers (10_state.md R28). -/
  prs : Parser
  /-- The collaborators behind the ports (10_state.md R22). -/
  col : Collab
  /-- The value the host's last register read returned (43_control.md R194; MODEL's own field, assumption log 16). -/
  rdata : Word
  /-- The moves to be made next, first one first (10_state.md R21; assumption log 1). -/
  agenda : List Move
  deriving DecidableEq, Repr

/-- What stops the machine with a fault. -/
inductive Fault where
  /-- Raised by an IHXC step when OP and the phase or position registers disagree with 10_state.md R29 and R30; the spec
  gives such a state no meaning and no run reaches one. Safe (assumption log 13). -/
  | incoherentControl
  deriving DecidableEq, Repr

/-- What the model has no step for. -/
inductive Refusal where
  /-- Raised by exec for a row that has no meaning yet; no row is left. Safe. -/
  | notModelled (mnemonic : String)
  /-- Raised by an IHXC step that needs a port nothing is connected to (70_reset_and_hazards.md R233: "a model admits no
  step that uses one"). Safe (assumption log 9). -/
  | portUnconnected (p : Port)
  /-- Raised by a platform move while an operation runs (70_reset_and_hazards.md R236: "A model gives no step to another
  writer"). Unsafe for a platform that does so all the same (assumption log 10). -/
  | foreignAccess
  deriving DecidableEq, Repr

/-- STATUS = 0x00000200 but for the live CKZ (10_state.md R38). -/
def Status.reset : Status :=
  { busy := false, done := false, ok := false, eof := false, err := .none, drop := false }

/-- 10_state.md R38. -/
def Framer.reset : Framer :=
  { mode := .data, ph := .idle, addr := 0, rem := 0, k := 0, pos := 0, acc := 0, d := 0 }

/-- 10_state.md R38. -/
def Parser.reset : Parser :=
  { ph := .idle, nib := false, hi := 0, len := 0, addr := 0, type := 0, cnt := 0, acc := 0, mode := .line }

/-- The collaborators of State.reset: DESIGN CHOICE (assumption logs 6, 7, 9, 15, 20, 23); the spec gives them no value. -/
def Collab.initial : Collab :=
  { mem := [], memDraws := [], memUp := true, inUp := true, outUp := true, inText := [], inLoop := [], inPos := 0, inDraws := [],
    outText := [], outDraws := [], trace := [] }

/-- The machine right after reset (10_state.md R38), with the collaborators of Collab.initial and nothing to do. -/
def State.reset : State :=
  { cfg := Config.ihxc, status := Status.reset, addr := 0, len := 0, ckAcc := 0, op := .none, waiting := none,
    frm := Framer.reset, prs := Parser.reset, col := Collab.initial, rdata := 0, agenda := [] }

end Sys2Proof.Machine
end

