-- ==== Sys2Proof/Machine/Flags.lean ====
section
/-! DEFINITION. The flags: the ERR code of each failure kind (60_exceptions.md R200), the live CKZ, and the STATUS word
the host reads (10_state.md R25, R31). -/

namespace Sys2Proof.Machine

/-- The ERR code of a failure kind (60_exceptions.md R200). -/
def FailKind.code : FailKind → BitVec 4
  | .none => 0
  | .badStart => 1
  | .badHex => 2
  | .badType => 3
  | .badChecksum => 4
  | .endOfInput => 5
  | .inputFault => 6
  | .emitFault => 7
  | .illegalCmd => 8

/-- CKZ, live: 1 exactly when CK_ACC = 0 (10_state.md R25). -/
def State.ckz (s : State) : Bool := s.ckAcc == 0

/-- The STATUS word: CKZ in bit 9, DROP 8, ERR 7 to 4, EOF 3, OK 2, DONE 1, BUSY 0, the rest 0 (10_state.md R25). -/
def statusBits (st : Status) (ckz : Bool) : Word :=
  (0 : BitVec 22) ++ BitVec.ofBool ckz ++ BitVec.ofBool st.drop ++ st.err.code ++ BitVec.ofBool st.eof ++
    BitVec.ofBool st.ok ++ BitVec.ofBool st.done ++ BitVec.ofBool st.busy

/-- What a read of STATUS returns (10_state.md R25, 43_control.md R194). -/
def State.statusWord (s : State) : Word := statusBits s.status s.ckz

/-- STATUS at acceptance: everything cleared (43_control.md R190). -/
def Status.cleared : Status :=
  { busy := false, done := false, ok := false, eof := false, err := .none, drop := false }

/-- STATUS at completion: DROP is left alone (43_control.md R196; 95_test_vectors.md X5). -/
def Status.completed (st : Status) (ok eof : Bool) (err : FailKind) : Status :=
  { st with busy := false, done := true, ok := ok, eof := eof, err := err }

end Sys2Proof.Machine
end

