-- ==== Sys2Proof/Machine/Ops.lean ====
section
/-! DEFINITION. The operations every meaning shares: the four port transactions (00_scope.md R9, 10_state.md R34 to
R37), acceptance, completion and failure of a command (43_control.md R190, R191, R196; 60_exceptions.md R204), reset
(70_reset_and_hazards.md R230), and the host's register reads and plain register writes (43_control.md R194, R195). -/

namespace Sys2Proof.Machine

/-! ## Port transactions -/

/-- The outcome of offering one transaction to a port: answered, never answered (43_control.md R196), or nothing is
connected (70_reset_and_hazards.md R233). -/
inductive PortResult (α : Type) where
  | answer (a : α) (c : Collab)
  | silent
  | unconnected (p : Port)
  deriving Repr

/-- The image has answered a `MemRead` (10_state.md R34). -/
def Collab.wasRead (c : Collab) (a : Addr) (draws : List MemDraw) : Collab :=
  { c with memDraws := draws, trace := c.trace ++ [.memRead a (c.mem.read a)] }

/-- `MemRead(a, 1)`: never fails, no side effect on the image (10_state.md R34); whether it is answered is drawn
(assumption log 22). -/
def Collab.memRead (c : Collab) (a : Addr) : PortResult Byte :=
  if c.memUp then
    match c.memDraws with
    | [] => .answer (c.mem.read a) (c.wasRead a [])
    | .ok :: ds => .answer (c.mem.read a) (c.wasRead a ds)
    | .silent :: _ => .silent
  else .unconnected .mem

/-- The image has stored a byte (10_state.md R35). -/
def Collab.wasWritten (c : Collab) (a : Addr) (v : Byte) (draws : List MemDraw) : Collab :=
  { c with mem := c.mem.write a v, memDraws := draws, trace := c.trace ++ [.memWrite a v] }

/-- `MemWrite(a, 1, v)`: never fails, changes one cell (10_state.md R35); whether it is answered is drawn (assumption
log 22). -/
def Collab.memWrite (c : Collab) (a : Addr) (v : Byte) : PortResult Unit :=
  if c.memUp then
    match c.memDraws with
    | [] => .answer () (c.wasWritten a v [])
    | .ok :: ds => .answer () (c.wasWritten a v ds)
    | .silent :: _ => .silent
  else .unconnected .mem

/-- The sink has taken the character (10_state.md R36). -/
def Collab.emitted (c : Collab) (ch : Byte) (draws : List Draw) : Collab :=
  { c with outText := c.outText ++ [ch], outDraws := draws, trace := c.trace ++ [.emit ch .ok] }

/-- The sink has faulted; the character is not appended (10_state.md R36, assumption log 21). -/
def Collab.emitFaulted (c : Collab) (ch : Byte) (draws : List Draw) : Collab :=
  { c with outDraws := draws, trace := c.trace ++ [.emit ch .fault] }

/-- `Emit(c)`: the sink's own choice, drawn (10_state.md R36, assumption log 7). -/
def Collab.emit (c : Collab) (ch : Byte) : PortResult OutAnswer :=
  if c.outUp then
    match c.outDraws with
    | [] => .answer .ok (c.emitted ch [])
    | .ok :: ds => .answer .ok (c.emitted ch ds)
    | .fault :: ds => .answer .fault (c.emitFaulted ch ds)
    | .silent :: _ => .silent
  else .unconnected .out

/-- The source has given a character; `rest` is listed after it (10_state.md R37). -/
def Collab.took (c : Collab) (ch : Byte) (rest : List Byte) (draws : List Draw) : Collab :=
  { c with inText := rest, inPos := c.inPos + 1, inDraws := draws, trace := c.trace ++ [.consume (.chr ch)] }

/-- The source has answered without giving a character (10_state.md R37). -/
def Collab.tookNone (c : Collab) (r : InAnswer) (draws : List Draw) : Collab :=
  { c with inDraws := draws, trace := c.trace ++ [.consume r] }

/-- The listed characters, or, with none left, those of an endless stream's next turn (assumption log 23). -/
def Collab.upcoming (c : Collab) : List Byte := if c.inText = [] then c.inLoop else c.inText

/-- The source serves a call: the next character, or `End` when none is left (10_state.md R37). -/
def Collab.served (c : Collab) (draws : List Draw) : PortResult InAnswer :=
  match c.upcoming with
  | [] => .answer .eoi (c.tookNone .eoi draws)
  | ch :: rest => .answer (.chr ch) (c.took ch rest draws)

/-- `Consume()`: the source serves the call or faults, drawn (10_state.md R37, assumption log 7). -/
def Collab.consume (c : Collab) : PortResult InAnswer :=
  if c.inUp then
    match c.inDraws with
    | [] => c.served []
    | .ok :: ds => c.served ds
    | .fault :: ds => .answer .fault (c.tookNone .fault ds)
    | .silent :: _ => .silent
  else .unconnected .inp

/-! ## Acceptance, completion, failure -/

/-- `complete(ok, eof, err)` of 43_control.md R196. -/
def State.complete (s : State) (ok eof : Bool) (err : FailKind) : State :=
  { s with
    status := s.status.completed ok eof err
    op := .none
    waiting := none
    frm := { s.frm with ph := .idle }
    prs := { s.prs with ph := .idle } }

/-- Failure entry, `raise Fail(k)` of 60_exceptions.md R204: the command completes with OK 0, EOF 0, ERR k. Nothing else
is saved and there is no return from it (R207). -/
def State.fail (s : State) (k : FailKind) : State := s.complete false false k

/-- The first line of 43_control.md R190: DONE, OK, EOF, ERR and DROP are cleared (BUSY is 0 already). -/
def State.accepted (s : State) : State := { s with status := Status.cleared }

/-- A CTRL write while BUSY = 1 sets DROP and changes nothing else (43_control.md R191). -/
def State.dropped (s : State) : State := { s with status := { s.status with drop := true } }

/-- `OP <- cmd; BUSY <- 1` of 43_control.md R190; no transaction of the new operation is outstanding. -/
def State.begun (s : State) (op : Op) : State := { s with op := op, waiting := none, status := { s.status with busy := true } }

/-- A command written to CTRL: dropped while BUSY = 1, else accepted and then given its own effect (43_control.md R190,
R191). -/
def acceptOrDrop (s : State) (effect : State → State) : Host.Outcome State Fault Refusal :=
  .next (if s.status.busy then s.dropped else effect s.accepted)

/-- CK_ACC replaced (10_state.md R26). -/
def State.withCkAcc (s : State) (v : Byte) : State := { s with ckAcc := v }

/-- `F_MODE <- m; F_PH <- p; F_ADDR <- ADDR[15:0]; F_REM <- LEN[LEN_BITS-1:0]; F_POS <- 0` (43_control.md R190,
41_framer.md R122, R124). -/
def State.frameArgs (s : State) (m : FMode) : State :=
  { s with frm := { s.frm with mode := m, ph := .line, addr := s.addr, rem := lenField s.cfg s.len, pos := 0 } }

/-- `F_MODE <- END; F_PH <- EOFLIT; F_POS <- 0` (43_control.md R190, 41_framer.md R123). -/
def State.frameLiteral (s : State) (m : FMode) : State :=
  { s with frm := { s.frm with mode := m, ph := .eoflit, pos := 0 } }

/-- `P_PH <- SEEK; P_MODE <- m` (43_control.md R190). -/
def State.parseFrom (s : State) (m : PMode) : State := { s with prs := { s.prs with ph := .seek, mode := m } }

/-! ## Port transactions of a running operation -/

/-- The collaborators after a transaction. -/
def State.withCol (s : State) (c : Collab) : State := { s with col := c }

/-- The step has met a port that never answers: the transactions it performed before that one stay performed (`c`), its
register updates, due at its end (00_scope.md R8), do not happen, and the operation waits (43_control.md R196; assumption
log 8). -/
def State.awaiting (s : State) (c : Collab) (p : Port) : State := { s with col := c, waiting := some p }

/-- `EmitOrFail(c)` of 41_framer.md R126. `s` is the state the step starts from, `t` the state after the step's register
updates and its MemRead, `k` what the step does after `Ok`. -/
def emitOrFail (s t : State) (ch : Byte) (k : State → State) : Host.Outcome State Fault Refusal :=
  match t.col.emit ch with
  | .answer .ok c => .next (k (t.withCol c))
  | .answer .fault c => .next ((t.withCol c).fail .emitFault)
  | .silent => .next (s.awaiting t.col .out)
  | .unconnected p => .refused (.portUnconnected p)

/-- `ConsumeOrFail()` of 42_parser.md R150: `End` and `Fault` fail before any test of a character (60_exceptions.md R206). -/
def consumeOrFail (s : State) (k : Byte → State → Host.Outcome State Fault Refusal) :
    Host.Outcome State Fault Refusal :=
  match s.col.consume with
  | .answer (.chr ch) c => k ch (s.withCol c)
  | .answer .eoi c => .next ((s.withCol c).fail .endOfInput)
  | .answer .fault c => .next ((s.withCol c).fail .inputFault)
  | .silent => .next (s.awaiting s.col .inp)
  | .unconnected p => .refused (.portUnconnected p)

/-! ## Reset -/

/-- Reset asserted by the host: every piece of IHXC state at its value of 10_state.md R38; the collaborators, the host's
read data, the agenda and the configuration are not IHXC's (70_reset_and_hazards.md R230, R231; 10_state.md R22). -/
def State.resetAsserted (s : State) : State :=
  { State.reset with cfg := s.cfg, col := s.col, rdata := s.rdata, agenda := s.agenda }

/-! ## Host register access -/

/-- The value of a register (10_state.md R24): CTRL and the reserved registers 6 and 7 read 0. -/
def State.regValue (s : State) (r : BitVec 3) : Word :=
  if r = regStatus then s.statusWord
  else if r = regAddr then s.addr.zeroExtend 32
  else if r = regLen then s.len
  else if r = regCkAcc then s.ckAcc.zeroExtend 32
  else if r = regCkOut then (-s.ckAcc).zeroExtend 32
  else 0

/-- A host register read: no side effect, allowed at any time (43_control.md R194). -/
def State.hostRead (s : State) (r : BitVec 3) : State := { s with rdata := s.regValue r }

/-- A host write to a register other than CTRL (43_control.md R195): ADDR and LEN take their fields, every other register
ignores it. -/
def State.plainWrite (s : State) (r : BitVec 3) (w : Word) : State :=
  if r = regAddr then { s with addr := addrField w }
  else if r = regLen then { s with len := lenField s.cfg w }
  else s

/-- The agenda replaced. -/
def State.withAgenda (s : State) (ms : List Move) : State := { s with agenda := ms }

end Sys2Proof.Machine
end

