-- ==== Sys2Proof/Machine/Cku.lean ====
section
/-! DEFINITION. The checksum unit's commands (40_checksum.md R101, R102). -/

namespace Sys2Proof.Machine

/-- CK_CLR (40_checksum.md R101): `CK_ACC <- 0`, complete in the acceptance step. -/
def execCkClr (s : State) : Host.Outcome State Fault Refusal :=
  acceptOrDrop s fun t => (t.withCkAcc 0).complete true false .none

/-- CK_ADD b (40_checksum.md R102): `CK_ACC <- CK_ACC +8 b`, complete in the acceptance step. -/
def execCkAdd (b : Byte) (s : State) : Host.Outcome State Fault Refusal :=
  acceptOrDrop s fun t => (t.withCkAcc (t.ckAcc + b)).complete true false .none

end Sys2Proof.Machine
end

