-- ==== Sys2Proof/Machine/Control.lean ====
section
/-! DEFINITION. Host control (43_control.md): NOP, and the completion of an illegal command word. -/

namespace Sys2Proof.Machine

/-- NOP (43_control.md R192): completes in its acceptance step with OK 1. -/
def execNop (s : State) : Host.Outcome State Fault Refusal :=
  acceptOrDrop s fun t => t.complete true false .none

/-- ILLEGAL (43_control.md R193, 60_exceptions.md R203): nothing is performed, the command completes with ERR = ILLEGAL_CMD
in its acceptance step; like any command it is dropped while BUSY = 1 (R191). -/
def illegalCommand (s : State) : Host.Outcome State Fault Refusal :=
  acceptOrDrop s fun t => t.fail .illegalCmd

end Sys2Proof.Machine
end

