-- ==== Sys2Proof/Machine/Framer.lean ====
section
/-! DEFINITION. The record framer: the text it produces (41_framer.md R120, R121), the acceptance of its three commands
(R122 to R124) and its step, one character each (R125, R126). -/

namespace Sys2Proof.Machine

/-! ## The text (41_framer.md R120, R121) -/

/-- The record bytes before CC of a data record: `[k, a[15:8], a[7:0], 0x00] ++ d` (41_framer.md R120). -/
def lineBytes (a : Addr) (d : List Byte) : List Byte := [BitVec.ofNat 8 d.length, hiByte a, loByte a, 0x00] ++ d

/-- `line(a, d)` of 41_framer.md R120, NEWLINE included. -/
def lineText (cfg : Config) (a : Addr) (d : List Byte) : List Byte :=
  [chColon] ++ hex2 (BitVec.ofNat 8 d.length) ++ hex4 a ++ hex2 0x00 ++ d.flatMap hex2 ++ hex2 (cks (lineBytes a d)) ++
    [cfg.newline]

/-- The bytes `M[a], M[a + 1], ..., M[a + n - 1]`, addresses modulo 65536 (41_framer.md R121). -/
def imageBytes (m : Memory) (a : Addr) (n : Nat) : List Byte :=
  (List.range n).map fun i => m.read (a + BitVec.ofNat 16 i)

/-- `d_j`: the data bytes of line j (41_framer.md R121). -/
def chunkBytes (m : Memory) (a : Addr) (n j : Nat) : List Byte :=
  imageBytes m (a + BitVec.ofNat 16 (16 * j)) (min 16 (n - 16 * j))

/-- The output of `write_data`: the lines 0 to ceil(n / 16) - 1, concatenated (41_framer.md R121). -/
def dataText (cfg : Config) (m : Memory) (a : Addr) (n : Nat) : List Byte :=
  (List.range ((n + 15) / 16)).flatMap fun j => lineText cfg (a + BitVec.ofNat 16 (16 * j)) (chunkBytes m a n j)

/-- The output of `write_all` (41_framer.md R124). -/
def allText (cfg : Config) (m : Memory) (a : Addr) (n : Nat) : List Byte := dataText cfg m a n ++ eofLiteral

/-! ## Acceptance (43_control.md R190) -/

/-- FRM_DATA (41_framer.md R122): its arguments are sampled and the operation begins; the framer's steps follow. -/
def execFrmData (s : State) : Host.Outcome State Fault Refusal :=
  acceptOrDrop s fun t => (t.begun .frmData).frameArgs .data

/-- FRM_END (41_framer.md R123). -/
def execFrmEnd (s : State) : Host.Outcome State Fault Refusal :=
  acceptOrDrop s fun t => (t.begun .frmEnd).frameLiteral .fin

/-- FRM_ALL (41_framer.md R124). -/
def execFrmAll (s : State) : Host.Outcome State Fault Refusal :=
  acceptOrDrop s fun t => (t.begun .frmAll).frameArgs .all

/-! ## The step (41_framer.md R125) -/

/-- `F_POS` counts one character further. -/
def State.nextPos (s : State) : State := { s with frm := { s.frm with pos := s.frm.pos + 1 } }

/-- The loop head of 41_framer.md R122, done in the step that emits ':' (assumption log 11): `F_K <- min(16, F_REM)`,
`F_REM <- F_REM - F_K`, `F_ACC <- F_K +8 F_ADDR[15:8] +8 F_ADDR[7:0] +8 0x00`. -/
def State.openLine (s : State) : State :=
  let k := chunkLen s.frm.rem
  { s with frm := { s.frm with
    k := k
    rem := s.frm.rem - k.zeroExtend 32
    acc := k.zeroExtend 8 + hiByte s.frm.addr + loByte s.frm.addr + 0x00 } }

/-- Characters 1 to 8 of a line: `hex2(F_K) ++ hex4(F_ADDR) ++ "00"` (41_framer.md R120). -/
def headerText (f : Framer) : List Byte := hex2 (f.k.zeroExtend 8) ++ hex4 f.addr ++ hex2 0x00

/-- A data byte has been read: F_D holds it and F_ACC has summed it (41_framer.md R122). -/
def State.tookByte (s : State) (v : Byte) : State :=
  { s with frm := { s.frm with d := v, acc := s.frm.acc + v } }

/-- After NEWLINE: `F_ADDR <- F_ADDR +16 F_K`, F_POS returns to 0; when no byte is left FRM_DATA completes and FRM_ALL
goes on to the literal (41_framer.md R122, R124, R125). -/
def State.closeLine (s : State) : State :=
  let t := { s with frm := { s.frm with addr := s.frm.addr + s.frm.k.zeroExtend 16, pos := 0 } }
  if t.frm.rem = 0 then
    if t.frm.mode = .data then t.complete true false .none else t.frameLiteral .all
  else t

/-- After a character of the literal: the last one completes the command (41_framer.md R123, R124). -/
def State.nextLiteral (s : State) : State :=
  if s.frm.pos = 10 then s.complete true false .none else s.nextPos

/-- One step in F_PH = EOFLIT: the next character of the end-of-file literal (41_framer.md R123, R125). -/
def literalStep (s t : State) : Host.Outcome State Fault Refusal :=
  match eofLiteral[t.frm.pos.toNat]? with
  | some ch => emitOrFail s t ch State.nextLiteral
  | none => .fault .incoherentControl

/-- The step that emits the first hex character of the data byte at `a`: it also reads the byte (41_framer.md R125). -/
def dataByteStep (s : State) (a : Addr) : Host.Outcome State Fault Refusal :=
  match s.col.memRead a with
  | .answer v c =>
    let t := (s.withCol c).tookByte v
    emitOrFail s t (digit (hiNib v)) State.nextPos
  | .silent => .next (s.awaiting s.col .mem)
  | .unconnected p => .refused (.portUnconnected p)

/-- The character of a line at F_POS, from 1 to 10 + 2 F_K, that needs no MemRead: the header, the second digit of the
data byte in F_D, and the two digits of the checksum `-8 F_ACC` (41_framer.md R120, R122). -/
def lineChar (f : Framer) : Byte :=
  let pos := f.pos.toNat
  let k := f.k.toNat
  if pos < 9 then (headerText f).getD (pos - 1) 0
  else if pos < 9 + 2 * k then digit (loNib f.d)
  else if pos = 9 + 2 * k then digit (hiNib (-f.acc))
  else digit (loNib (-f.acc))

/-- F_POS is the first digit of data byte i: `9 + 2 i` for i below F_K (41_framer.md R125). -/
def atDataByte (f : Framer) : Bool :=
  9 ≤ f.pos.toNat && f.pos.toNat < 9 + 2 * f.k.toNat && (f.pos.toNat - 9) % 2 == 0

/-- The address of that byte, `F_ADDR +16 i` (41_framer.md R122). -/
def dataByteAddr (f : Framer) : Addr := f.addr + BitVec.ofNat 16 ((f.pos.toNat - 9) / 2)

/-- One step inside a line, F_POS from 1 to 11 + 2 F_K (41_framer.md R120, R125). -/
def insideLine (s : State) : Host.Outcome State Fault Refusal :=
  if atDataByte s.frm then dataByteStep s (dataByteAddr s.frm)
  else if s.frm.pos.toNat < 11 + 2 * s.frm.k.toNat then emitOrFail s s (lineChar s.frm) State.nextPos
  else if s.frm.pos.toNat = 11 + 2 * s.frm.k.toNat then emitOrFail s s s.cfg.newline State.closeLine
  else .fault .incoherentControl

/-- One step in F_PH = LINE. With LEN = 0 there is no line: FRM_DATA completes in a step of its own with no transaction,
FRM_ALL emits the literal's first character (41_framer.md R122, R124, R125). -/
def lineStep (s : State) : Host.Outcome State Fault Refusal :=
  if s.frm.mode = .fin then .fault .incoherentControl
  else if s.frm.pos = 0 then
    if s.frm.rem = 0 then
      if s.frm.mode = .data then .next (s.complete true false .none) else literalStep s (s.frameLiteral .all)
    else emitOrFail s s.openLine chColon State.nextPos
  else insideLine s

/-- One framer step (41_framer.md R125). -/
def framerStep (s : State) : Host.Outcome State Fault Refusal :=
  match s.frm.ph with
  | .line => lineStep s
  | .eoflit => literalStep s s
  | .idle => .fault .incoherentControl

end Sys2Proof.Machine
end

