-- ==== Sys2Proof/Machine/Parser.lean ====
section
/-! DEFINITION. The serial parser's commands (42_parser.md R161, R162), the two record types (R163, R164) and the pieces of
the phase table that need no decoding (R165). -/

namespace Sys2Proof.Machine

/-- PRS_LINE (42_parser.md R161): the operation begins at seek-start; the parser's steps follow. -/
def execPrsLine (s : State) : Host.Outcome State Fault Refusal :=
  acceptOrDrop s fun t => (t.begun .prsLine).parseFrom .line

/-- PRS_READ (42_parser.md R162). -/
def execPrsRead (s : State) : Host.Outcome State Fault Refusal :=
  acceptOrDrop s fun t => (t.begun .prsRead).parseFrom .read

/-- The record whose header has been read begins its payload: `P_TYPE <- tt`, LL bytes to go to cells from AAAA on, and
`P_PH <- (P_CNT = 0 ? CKS : DATA)` (42_parser.md R165, row TYPE; assumption log 17). -/
def State.beginPayload (s : State) (tt : Byte) (ll : Byte) (aaaa : Addr) : State :=
  { s with prs := { s.prs with type := tt, cnt := ll, addr := aaaa, ph := if ll = 0 then .cks else .data } }

/-- A Data record (42_parser.md R164). -/
def execRecData (ll : Byte) (aaaa : Addr) (s : State) : Host.Outcome State Fault Refusal :=
  .next (s.beginPayload 0x00 ll aaaa)

/-- An EndOfFile record (42_parser.md R163): its LL and AAAA are not checked, and its payload is written like a Data
record's. -/
def execRecEof (ll : Byte) (aaaa : Addr) (s : State) : Host.Outcome State Fault Refusal :=
  .next (s.beginPayload 0x01 ll aaaa)

/-- Row SEEK on a character (42_parser.md R151, R152, R165). -/
def State.seekChar (s : State) (c : Byte) : State :=
  if isWs s.cfg c then s
  else if c = chColon then { s with prs := { s.prs with acc := 0, nib := false, ph := .len } }
  else s.fail .badStart

/-- The first digit of a pair (42_parser.md R165): `P_HI <- hexval(c)`, `P_NIB <- 1`. -/
def State.firstDigit (s : State) (v : Nib) : State := { s with prs := { s.prs with hi := v, nib := true } }

/-- What every second digit does: `P_ACC <- P_ACC +8 b`, `P_NIB <- 0` (42_parser.md R153, R165). -/
def State.tookPair (s : State) (b : Byte) : State :=
  { s with prs := { s.prs with acc := s.prs.acc + b, nib := false } }

/-- A valid record has ended (42_parser.md R160 to R162, R165 row CKS): PRS_LINE completes, PRS_READ completes at an
EndOfFile record and otherwise seeks the next record. -/
def State.recordDone (s : State) : State :=
  match s.prs.mode with
  | .line => s.complete true (s.prs.type == 0x01) .none
  | .read => if s.prs.type = 0x01 then s.complete true true .none else { s with prs := { s.prs with ph := .seek } }

/-- A data byte has been written: the next one goes to the next cell, one fewer is left, and after the last the checksum
follows (42_parser.md R158, R165 row DATA). -/
def State.wroteByte (s : State) : State :=
  { s with prs := { s.prs with
    addr := s.prs.addr + 1
    cnt := s.prs.cnt - 1
    ph := if s.prs.cnt = 1 then .cks else .data } }

/-- Row DATA on a whole byte: `MemWrite(P_ADDR, 1, b)`, before the next Consume (42_parser.md R158). `s` is the state the
step starts from, `t` the state after the Consume. -/
def dataByte (s t : State) (b : Byte) : Host.Outcome State Fault Refusal :=
  match t.col.memWrite t.prs.addr b with
  | .answer () c => .next (t.withCol c).wroteByte
  | .silent => .next (s.awaiting t.col .mem)
  | .unconnected p => .refused (.portUnconnected p)

/-- Row CKS on a whole byte, the total already taken (42_parser.md R159, R165). -/
def State.checkSum (s : State) : State := if s.prs.acc = 0 then s.recordDone else s.fail .badChecksum

end Sys2Proof.Machine
end

