-- ==== Sys2Proof/Machine/Dispatch.lean ====
section
/-! DEFINITION. One meaning per row of spec/opcode_table.json. -/

namespace Sys2Proof.Machine

/-- The effect of one instruction: a command at its write to CTRL, a record type once its header has been read. -/
def exec (i : Instr) (s : State) : Host.Outcome State Fault Refusal :=
  match i with
  | .nop => Sys2Proof.Machine.execNop s
  | .ckClr => Sys2Proof.Machine.execCkClr s
  | .ckAdd b => Sys2Proof.Machine.execCkAdd b s
  | .frmData => Sys2Proof.Machine.execFrmData s
  | .frmEnd => Sys2Proof.Machine.execFrmEnd s
  | .frmAll => Sys2Proof.Machine.execFrmAll s
  | .prsLine => Sys2Proof.Machine.execPrsLine s
  | .prsRead => Sys2Proof.Machine.execPrsRead s
  | .recData ll aaaa => Sys2Proof.Machine.execRecData ll aaaa s
  | .recEof ll aaaa => Sys2Proof.Machine.execRecEof ll aaaa s

end Sys2Proof.Machine
end

