-- ==== Sys2Proof/Machine/Agenda.lean ====
section
/-! DEFINITION. What the agents do in one step: IHXC (10_state.md R21, 42_parser.md R165), the host (43_control.md R190
to R196), the platform (70_reset_and_hazards.md R233, R236); and how a word is put where the next step takes its
instruction from. -/

namespace Sys2Proof.Machine

/-! ## IHXC -/

/-- Row TYPE on a whole byte (42_parser.md R157, R165): the record type is decoded from the header, an illegal one fails
before any data character is consumed. -/
def recordType (s : State) (b : Byte) : Host.Outcome State Fault Refusal :=
  match decodeHeader (headerOf s.prs.cnt s.prs.addr b) with
  | .ok i => exec i s
  | .error _ => .next (State.fail { s with prs := { s.prs with type := b } } .badType)

/-- A whole byte in phase P_PH (42_parser.md R165); `s` is the state the step starts from, `t` the state after the
Consume and after P_ACC and P_NIB. -/
def hexByte (s t : State) (b : Byte) : Host.Outcome State Fault Refusal :=
  match t.prs.ph with
  | .idle => .fault .incoherentControl
  | .seek => .fault .incoherentControl
  | .len => .next { t with prs := { t.prs with len := b, cnt := b, ph := .adrh } }
  | .adrh => .next { t with prs := { t.prs with addr := addrOf b 0x00, ph := .adrl } }
  | .adrl => .next { t with prs := { t.prs with addr := addrOf (hiByte t.prs.addr) b, ph := .type } }
  | .type => recordType t b
  | .data => dataByte s t b
  | .cks => .next t.checkSum

/-- A character inside a record (42_parser.md R153, R165): a non-hex one fails at once, whichever digit it is. -/
def recordChar (s t : State) (c : Byte) : Host.Outcome State Fault Refusal :=
  match hexval c with
  | none => .next (t.fail .badHex)
  | some v => if t.prs.nib then hexByte s (t.tookPair (pairByte t.prs.hi v)) (pairByte t.prs.hi v) else .next (t.firstDigit v)

/-- One parser step: one Consume (42_parser.md R165). -/
def parserStep (s : State) : Host.Outcome State Fault Refusal :=
  match s.prs.ph with
  | .idle => .fault .incoherentControl
  | .seek => consumeOrFail s fun c t => .next (t.seekChar c)
  | .len => consumeOrFail s fun c t => recordChar s t c
  | .adrh => consumeOrFail s fun c t => recordChar s t c
  | .adrl => consumeOrFail s fun c t => recordChar s t c
  | .type => consumeOrFail s fun c t => recordChar s t c
  | .data => consumeOrFail s fun c t => recordChar s t c
  | .cks => consumeOrFail s fun c t => recordChar s t c

/-- The step of the operation that runs. With OP = NONE there is none and all state survives (60_exceptions.md R215,
70_reset_and_hazards.md R232). -/
def operationStep (s : State) : Host.Outcome State Fault Refusal :=
  match s.op with
  | .none => .next s
  | .frmData => framerStep s
  | .frmEnd => framerStep s
  | .frmAll => framerStep s
  | .prsLine => parserStep s
  | .prsRead => parserStep s

/-- One step of IHXC (10_state.md R21); while a port does not answer it makes none (43_control.md R196). -/
def ihxcStep (s : State) : Host.Outcome State Fault Refusal :=
  match s.waiting with
  | none => operationStep s
  | some _ => .next s

/-! ## The host -/

/-- A write to CTRL is a command (43_control.md R190, R191, R193). -/
def ctrlWrite (w : Word) (s : State) : Host.Outcome State Fault Refusal :=
  match decodeCommand w with
  | .ok i => exec i s
  | .error _ => illegalCommand s

/-- A host register write (43_control.md R195). -/
def hostWrite (r : BitVec 3) (w : Word) (s : State) : Host.Outcome State Fault Refusal :=
  if r = regCtrl then ctrlWrite w s else .next (s.plainWrite r w)

/-! ## The platform -/

/-- What a platform move does to the collaborators (70_reset_and_hazards.md R233, 95_test_vectors.md P2). -/
def PlatformMove.apply : PlatformMove → Collab → Collab
  | .connect m i o, c => { c with memUp := m, inUp := i, outUp := o }
  | .image cells draws, c => { c with mem := Memory.writeAll [] cells, memDraws := draws }
  | .poke a v, c => { c with mem := c.mem.write a v }
  | .input text loop draws, c => { c with inText := text, inLoop := loop, inPos := 0, inDraws := draws }
  | .output text draws, c => { c with outText := text, outDraws := draws }

/-- A platform move: none while an operation runs (70_reset_and_hazards.md R236, 10_state.md R20; assumption log 10). -/
def platformMove (p : PlatformMove) (s : State) : Host.Outcome State Fault Refusal :=
  if s.status.busy then .refused .foreignAccess else .next (s.withCol (p.apply s.col))

/-! ## The step -/

/-- One move of one agent, the rest of the agenda already in place. While BUSY = 1 a `wait` stays on the agenda and IHXC
takes a step (assumption log 5); its last read of STATUS is a step of the host (43_control.md R196). -/
def makeMove (m : Move) (s : State) : Host.Outcome State Fault Refusal :=
  match m with
  | .write r w => hostWrite r w s
  | .read r => .next (s.hostRead r)
  | .wait => if s.status.busy then ihxcStep (s.withAgenda (.wait :: s.agenda)) else .next (s.hostRead regStatus)
  | .reset => .next s.resetAsserted
  | .ihxc => ihxcStep s
  | .platform p => platformMove p s

/-- The machine's step: the first move of the agenda; with none left, IHXC steps (assumption log 1, 2). -/
def agendaStep (s : State) : Host.Outcome State Fault Refusal :=
  match s.agenda with
  | [] => ihxcStep s
  | m :: ms => makeMove m (s.withAgenda ms)

/-! ## Placing an instruction -/

/-- A command word where the next step takes it from: the host's next move writes it to CTRL, with no operation running. -/
def placeCommand (s : State) (w : Word) : State :=
  { s with
    status := { s.status with busy := false }
    op := .none
    waiting := none
    frm := { s.frm with ph := .idle }
    prs := { s.prs with ph := .idle }
    agenda := .write regCtrl w :: s.agenda }

/-- A record header where the next step takes it from: PRS_LINE is running and has consumed ':' and the first seven
digits of `{LL, AAAA, TT}`; the last digit of TT is the next character of the input (42_parser.md R165). -/
def placeHeader (s : State) (h : Word) : State :=
  { s with
    status := { Status.cleared with busy := true }
    op := .prsLine
    waiting := none
    frm := { s.frm with ph := .idle }
    prs := { ph := .type, nib := true, hi := hiNib (headerTt h), len := headerLl h, addr := headerAddr h, type := 0,
             cnt := headerLl h, acc := headerLl h + hiByte (headerAddr h) + loByte (headerAddr h), mode := .line }
    col := { s.col with inUp := true, inText := digit (loNib (headerTt h)) :: s.col.inText, inDraws := [] }
    agenda := .ihxc :: s.agenda }

/-- The word placed in its own space (assumption log 4). -/
def placeWord (s : State) (nbits w : Nat) : State :=
  match decodeTableWord nbits w with
  | some i => if i.isCommand then placeCommand s (encode i) else placeHeader s (encode i)
  | none => placeCommand s (BitVec.ofNat 32 (w % 2 ^ nbits))

end Sys2Proof.Machine
end

