-- ==== Sys2Proof/Machine/Step.lean ====
section
/-! DEFINITION. The machine's one step, and the host's way to place an instruction. -/

namespace Sys2Proof.Machine

/-- One step: one move of one agent (10_state.md R20, R21). -/
def step (s : State) : Host.Outcome State Fault Refusal := Sys2Proof.Machine.agendaStep s

/-- `s` with the instruction whose bits are `w` placed where the next step takes its instruction from (assumption log 3). -/
def State.withFetchWord (s : State) (nbits w : Nat) : State := Sys2Proof.Machine.placeWord s nbits w

end Sys2Proof.Machine
end

