-- ==== Sys2Proof/Machine/Assembler.lean ====
section
/-! DEFINITION. Host programs: the pseudo-instructions (30_encoding.md R85) and the assembler syntax (R84) as a function
from text to the host's moves. It is not part of IHXC: it is how a program of the spec becomes an agenda (assumption
log 3, 19). -/

namespace Sys2Proof.Machine

/-! ## Moves of commands and pseudo-instructions -/

/-- A command mnemonic stands for `wr CTRL, w` (30_encoding.md R84). -/
def commandMove (i : Instr) : Move := .write regCtrl (encode i)

/-- `ck.compute b0, ..., bk` (30_encoding.md R85). -/
def ckCompute (bs : List Byte) : List Move :=
  commandMove .ckClr :: (bs.map fun b => commandMove (.ckAdd b)) ++ [.read regCkOut]

/-- `ck.verify b0, ..., bk` (30_encoding.md R85). R85 gives the form with no byte for `ck.compute` only; that `ck.verify` with
no byte is `ck.clr`; `rd STATUS` is the model's DESIGN CHOICE (assumption log 19). -/
def ckVerify (bs : List Byte) : List Move :=
  commandMove .ckClr :: (bs.map fun b => commandMove (.ckAdd b)) ++ [.read regStatus]

/-- `write_data a, n` (30_encoding.md R85). -/
def writeDataMoves (a n : Word) : List Move := [.write regAddr a, .write regLen n, commandMove .frmData, .wait]

/-- `write_end` (30_encoding.md R85). -/
def writeEndMoves : List Move := [commandMove .frmEnd, .wait]

/-- `write_all a, n` (30_encoding.md R85). -/
def writeAllMoves (a n : Word) : List Move := [.write regAddr a, .write regLen n, commandMove .frmAll, .wait]

/-- `read_line` (30_encoding.md R85). -/
def readLineMoves : List Move := [commandMove .prsLine, .wait, .read regStatus]

/-- `read` (30_encoding.md R85). -/
def readMoves : List Move := [commandMove .prsRead, .wait, .read regStatus]

/-! ## The text form -/

/-- The words of a line up to its comment; blanks and commas separate (30_encoding.md R84, assumption log 19). -/
def asmWords : List Char → List (List Char)
  | [] => [[]]
  | c :: cs =>
    if c = ';' then [[]]
    else if c = ' ' ∨ c = ',' ∨ c = '\t' ∨ c = '\r' then [] :: asmWords cs
    else match asmWords cs with
      | [] => [[c]]
      | w :: ws => (c :: w) :: ws

/-- The value of one digit in a base of at most 16. -/
def asmDigit (base : Nat) (c : Char) : Option Nat :=
  let n := c.toNat
  let v := if 0x30 ≤ n ∧ n ≤ 0x39 then n - 0x30
    else if 0x61 ≤ n ∧ n ≤ 0x66 then n - 0x61 + 10
    else if 0x41 ≤ n ∧ n ≤ 0x46 then n - 0x41 + 10
    else 16
  if v < base then some v else none

/-- The value of a digit string, most significant digit first. -/
def asmDigits (base : Nat) : Nat → List Char → Option Nat
  | acc, [] => some acc
  | acc, c :: cs =>
    match asmDigit base c with
    | some d => asmDigits base (acc * base + d) cs
    | none => none

/-- An immediate in hexadecimal with `0x` or in decimal (30_encoding.md R84), below a bound. -/
def asmImm (bound : Nat) (w : List Char) : Option Nat :=
  let v := match w with
    | '0' :: 'x' :: c :: cs => asmDigits 16 0 (c :: cs)
    | c :: cs => asmDigits 10 0 (c :: cs)
    | [] => none
  match v with
  | some n => if n < bound then some n else none
  | none => none

/-- A 32-bit immediate. -/
def asmWord (w : List Char) : Option Word := (asmImm (2 ^ 32) w).map (BitVec.ofNat 32)

/-- The 8-bit immediates of a list, all or none. -/
def asmBytes : List (List Char) → Option (List Byte)
  | [] => some []
  | w :: ws =>
    match asmImm 256 w, asmBytes ws with
    | some n, some bs => some (BitVec.ofNat 8 n :: bs)
    | _, _ => none

/-- A register by the name of 10_state.md R24; the reserved registers go by their numbers (95_test_vectors.md X6). -/
def asmReg (w : List Char) : Option (BitVec 3) :=
  if w = ['C', 'T', 'R', 'L'] then some regCtrl
  else if w = ['S', 'T', 'A', 'T', 'U', 'S'] then some regStatus
  else if w = ['A', 'D', 'D', 'R'] then some regAddr
  else if w = ['L', 'E', 'N'] then some regLen
  else if w = ['C', 'K', '_', 'A', 'C', 'C'] then some regCkAcc
  else if w = ['C', 'K', '_', 'O', 'U', 'T'] then some regCkOut
  else if w = ['6'] then some 6
  else if w = ['7'] then some 7
  else none

/-- The mnemonics that take no operand (30_encoding.md R84, R85; `reset` as in 95_test_vectors.md P5). -/
def asmPlain (w : List Char) : Option (List Move) :=
  if w = ['n', 'o', 'p'] then some [commandMove .nop]
  else if w = ['c', 'k', '.', 'c', 'l', 'r'] then some [commandMove .ckClr]
  else if w = ['f', 'r', 'm', '.', 'd', 'a', 't', 'a'] then some [commandMove .frmData]
  else if w = ['f', 'r', 'm', '.', 'e', 'n', 'd'] then some [commandMove .frmEnd]
  else if w = ['f', 'r', 'm', '.', 'a', 'l', 'l'] then some [commandMove .frmAll]
  else if w = ['p', 'r', 's', '.', 'l', 'i', 'n', 'e'] then some [commandMove .prsLine]
  else if w = ['p', 'r', 's', '.', 'r', 'e', 'a', 'd'] then some [commandMove .prsRead]
  else if w = ['w', 'a', 'i', 't'] then some [.wait]
  else if w = ['r', 'e', 's', 'e', 't'] then some [.reset]
  else if w = ['w', 'r', 'i', 't', 'e', '_', 'e', 'n', 'd'] then some writeEndMoves
  else if w = ['r', 'e', 'a', 'd', '_', 'l', 'i', 'n', 'e'] then some readLineMoves
  else if w = ['r', 'e', 'a', 'd'] then some readMoves
  else none

/-- The mnemonics whose operands are bytes (30_encoding.md R84, R85); for `ck.verify` with none see assumption log 19. -/
def asmByteForm (w : List Char) (args : List (List Char)) : Option (List Move) :=
  match asmBytes args with
  | none => none
  | some bs =>
    if w = ['c', 'k', '.', 'c', 'o', 'm', 'p', 'u', 't', 'e'] then some (ckCompute bs)
    else if w = ['c', 'k', '.', 'v', 'e', 'r', 'i', 'f', 'y'] then some (ckVerify bs)
    else if w = ['c', 'k', '.', 'a', 'd', 'd'] then
      match bs with
      | [b] => some [commandMove (.ckAdd b)]
      | _ => none
    else none

/-- The mnemonics with two operands (30_encoding.md R84, R85). -/
def asmPairForm (w x y : List Char) : Option (List Move) :=
  match asmWord y with
  | none => none
  | some n =>
    if w = ['w', 'r'] then (asmReg x).map fun r => [.write r n]
    else if w = ['w', 'r', 'i', 't', 'e', '_', 'd', 'a', 't', 'a'] then (asmWord x).map fun a => writeDataMoves a n
    else if w = ['w', 'r', 'i', 't', 'e', '_', 'a', 'l', 'l'] then (asmWord x).map fun a => writeAllMoves a n
    else none

/-- One line of a program; `none` where it is not one of 30_encoding.md R84, R85. -/
def asmLine (line : List Char) : Option (List Move) :=
  match (asmWords line).filter (fun w => !w.isEmpty) with
  | [] => some []
  | [w] => (asmPlain w).or (asmByteForm w [])
  | [w, x] => if w = ['r', 'd'] then (asmReg x).map fun r => [.read r] else asmByteForm w [x]
  | [w, x, y] => (asmPairForm w x y).or (asmByteForm w [x, y])
  | w :: args => asmByteForm w args

/-- A program, one host action a line (30_encoding.md R84). -/
def assemble : List (List Char) → Option (List Move)
  | [] => some []
  | l :: ls =>
    match asmLine l, assemble ls with
    | some ms, some rest => some (ms ++ rest)
    | _, _ => none

end Sys2Proof.Machine
end

