-- ==== Sys2Proof/Machine/Procedure.lean ====
section
/-! DEFINITION. The operations as the spec's own pseudocode writes them, whole, over the ports: `write_data`, `write_end`,
`write_all` (41_framer.md R122 to R124), `ReadRecord`, `read_line`, `read` (42_parser.md R161, R162). The machine does not
use them: it runs the phase tables (R125, R165), and statements say that the two agree. -/

namespace Sys2Proof.Machine

/-- How a procedure over the ports ends: with a value, with a failure (60_exceptions.md R204), at a port that never
answers (43_control.md R196), or at an unconnected port (70_reset_and_hazards.md R233); or it has not ended when the turns
it was given are used up, as on endless whitespace (43_control.md R196). -/
inductive Proc (α : Type) where
  | done (a : α) (c : Collab)
  | failed (k : FailKind) (c : Collab)
  | hung (c : Collab)
  | unfinished (c : Collab)
  | refused (p : Port)
  deriving Repr

/-- The rest of the procedure runs only after `done`: nothing after a `raise` runs (00_scope.md R9). -/
def Proc.bind {α β : Type} (p : Proc α) (k : α → Collab → Proc β) : Proc β :=
  match p with
  | .done a c => k a c
  | .failed e c => .failed e c
  | .hung c => .hung c
  | .unfinished c => .unfinished c
  | .refused q => .refused q

/-- `EmitOrFail(ch)` (41_framer.md R126). -/
def emitProc (ch : Byte) (c : Collab) : Proc Unit :=
  match c.emit ch with
  | .answer .ok c' => .done () c'
  | .answer .fault c' => .failed .emitFault c'
  | .silent => .hung c
  | .unconnected p => .refused p

/-- `for c in text: EmitOrFail(c)`. -/
def emitAll : List Byte → Collab → Proc Unit
  | [], c => .done () c
  | ch :: text, c => (emitProc ch c).bind fun _ c' => emitAll text c'

/-- `MemRead(a, 1)` (41_framer.md R122). -/
def readProc (a : Addr) (c : Collab) : Proc Byte :=
  match c.memRead a with
  | .answer v c' => .done v c'
  | .silent => .hung c
  | .unconnected p => .refused p

/-- `for i in 0 .. n - 1`: the data bytes from `a` on, the running sum returned (41_framer.md R122). -/
def emitBytes : Nat → Addr → Byte → Collab → Proc Byte
  | 0, _, acc, c => .done acc c
  | n + 1, a, acc, c =>
    (readProc a c).bind fun v c1 => (emitAll (hex2 v) c1).bind fun _ c2 => emitBytes n (a + 1) (acc + v) c2

/-- The loop body of 41_framer.md R122 for one chunk of `k` bytes at `a`. -/
def emitLine (cfg : Config) (a : Addr) (k : Nat) (c : Collab) : Proc Unit :=
  let kb : Byte := BitVec.ofNat 8 k
  (emitAll ([chColon] ++ hex2 kb ++ hex4 a ++ hex2 0x00) c).bind fun _ c1 =>
    (emitBytes k a (kb + hiByte a + loByte a + 0x00) c1).bind fun acc c2 =>
      emitAll (hex2 (-acc) ++ [cfg.newline]) c2

/-- `while F_REM != 0`, at most `fuel` times (41_framer.md R122). -/
def emitLines (cfg : Config) : Nat → Addr → Nat → Collab → Proc Unit
  | 0, _, _, c => .done () c
  | fuel + 1, a, rem, c =>
    if rem = 0 then .done () c
    else (emitLine cfg a (min 16 rem) c).bind fun _ c' =>
      emitLines cfg fuel (a + BitVec.ofNat 16 (min 16 rem)) (rem - min 16 rem) c'

/-- `write_data` (41_framer.md R122): the loop ends after ceil(n / 16) chunks. -/
def writeData (cfg : Config) (a : Addr) (n : Nat) (c : Collab) : Proc Unit := emitLines cfg ((n + 15) / 16) a n c

/-- `write_end` (41_framer.md R123). -/
def writeEnd (c : Collab) : Proc Unit := emitAll eofLiteral c

/-- `write_all` (41_framer.md R124). -/
def writeAll (cfg : Config) (a : Addr) (n : Nat) (c : Collab) : Proc Unit :=
  (writeData cfg a n c).bind fun _ c' => writeEnd c'

/-- `ConsumeOrFail()` (42_parser.md R150). -/
def consumeProc (c : Collab) : Proc Byte :=
  match c.consume with
  | .answer (.chr ch) c' => .done ch c'
  | .answer .eoi c' => .failed .endOfInput c'
  | .answer .fault c' => .failed .inputFault c'
  | .silent => .hung c
  | .unconnected p => .refused p

/-- Seek-start and the start marker (42_parser.md R151, R152), at most `fuel` characters of it; a stream that ends never
uses up a fuel above the number of its characters. -/
def seekStart (cfg : Config) : Nat → Collab → Proc Unit
  | 0, c => .unfinished c
  | fuel + 1, c =>
    (consumeProc c).bind fun ch c' =>
      if isWs cfg ch then seekStart cfg fuel c'
      else if ch = chColon then .done () c'
      else .failed .badStart c'

/-- One hex digit of a pair, tested as it is consumed (42_parser.md R153). -/
def readDigit (c : Collab) : Proc Nib :=
  (consumeProc c).bind fun ch c' =>
    match hexval ch with
    | some v => .done v c'
    | none => .failed .badHex c'

/-- `ReadHexByte()` (42_parser.md R153), without the running total. -/
def readHexByte (c : Collab) : Proc Byte :=
  (readDigit c).bind fun hi c1 => (readDigit c1).bind fun lo c2 => .done (pairByte hi lo) c2

/-- `MemWrite(a, 1, v)` (42_parser.md R158). -/
def writeProc (a : Addr) (v : Byte) (c : Collab) : Proc Unit :=
  match c.memWrite a v with
  | .answer () c' => .done () c'
  | .silent => .hung c
  | .unconnected p => .refused p

/-- `while P_CNT != 0` (42_parser.md R158): the running total is returned. -/
def readPayload : Nat → Addr → Byte → Collab → Proc Byte
  | 0, _, acc, c => .done acc c
  | n + 1, a, acc, c =>
    (readHexByte c).bind fun b c1 => (writeProc a b c1).bind fun _ c2 => readPayload n (a + 1) (acc + b) c2

/-- `ReadRecord()` of 42_parser.md R161, at most `fuel` characters of seek-start; the value is TT. -/
def readRecord (cfg : Config) (fuel : Nat) (c : Collab) : Proc Byte :=
  (seekStart cfg fuel c).bind fun _ c0 =>
  (readHexByte c0).bind fun ll c1 =>
  (readHexByte c1).bind fun ahi c2 =>
  (readHexByte c2).bind fun alo c3 =>
  (readHexByte c3).bind fun tt c4 =>
    if tt ≠ 0x00 ∧ tt ≠ 0x01 then .failed .badType c4
    else (readPayload ll.toNat (addrOf ahi alo) (ll + ahi + alo + tt) c4).bind fun acc c5 =>
      (readHexByte c5).bind fun cc c6 => if acc + cc ≠ 0 then .failed .badChecksum c6 else .done tt c6

/-- `read` of 42_parser.md R162, at most `turns` records, each with `fuel` characters of seek-start. -/
def readStream (cfg : Config) (fuel : Nat) : Nat → Collab → Proc Byte
  | 0, c => .unfinished c
  | turns + 1, c =>
    (readRecord cfg fuel c).bind fun tt c' => if tt = 0x01 then .done tt c' else readStream cfg fuel turns c'

end Sys2Proof.Machine
end

