-- ==== Sys2Proof/Safety.lean ====
section
/-! DEFINITION. The terms claims are stated in: runs, the invariant of coherent control, what a whole operation settles
to, the memory effect of a transaction record, and the texts a parser accepts. -/

namespace Sys2Proof.Machine

/-! ## Runs -/

/-- `n` steps, stopping at the first fault or refusal. -/
def run : Nat → State → Host.Outcome State Fault Refusal
  | 0, s => .next s
  | n + 1, s =>
    match step s with
    | .next t => run n t
    | .fault f => .fault f
    | .refused r => .refused r

/-- What every IHXC step leaves alone: the configuration, the host's registers and read data, and the agenda. -/
def State.sameHost (t s : State) : Prop :=
  t.cfg = s.cfg ∧ t.addr = s.addr ∧ t.len = s.len ∧ t.ckAcc = s.ckAcc ∧ t.rdata = s.rdata ∧ t.agenda = s.agenda

/-- Idle: no operation runs (10_state.md R30, 60_exceptions.md R215). -/
def State.idle (s : State) : Prop :=
  s.status.busy = false ∧ s.op = .none ∧ s.waiting = none ∧ s.frm.ph = .idle ∧ s.prs.ph = .idle

/-- The host makes no move but possibly to wait: it lets IHXC run until BUSY = 0 (30_encoding.md R84). -/
def State.undisturbed (s : State) : Prop := s.agenda = [] ∨ ∃ ms, s.agenda = .wait :: ms

/-- Every call is served: no draw faults or stays silent. -/
def allServed (ds : List Draw) : Prop := ∀ d ∈ ds, d = Draw.ok

/-- MEM is connected and answers every call. -/
def Collab.memServes (c : Collab) : Prop := c.memUp = true ∧ ∀ d ∈ c.memDraws, d = MemDraw.ok

/-- IN is connected and serves every call. -/
def Collab.inServes (c : Collab) : Prop := c.inUp = true ∧ allServed c.inDraws

/-- OUT is connected and serves every call. -/
def Collab.outServes (c : Collab) : Prop := c.outUp = true ∧ allServed c.outDraws

/-- The character n places ahead in the input stream, if there is one: the listed ones, then the loop for ever (10_state.md
R37; assumption log 23). -/
def Collab.ahead (c : Collab) (n : Nat) : Option Byte :=
  if n < c.inText.length then c.inText[n]? else c.inLoop[(n - c.inText.length) % c.inLoop.length]?

/-! ## Coherent control -/

/-- OP agrees with BUSY and with the units' phases and modes (10_state.md R28 to R30). -/
def State.opCoherent (s : State) : Prop :=
  match s.op with
  | .none => s.status.busy = false ∧ s.waiting = none ∧ s.frm.ph = .idle ∧ s.prs.ph = .idle
  | .frmData => s.status.busy = true ∧ s.frm.ph = .line ∧ s.frm.mode = .data ∧ s.prs.ph = .idle
  | .frmEnd => s.status.busy = true ∧ s.frm.ph = .eoflit ∧ s.frm.mode = .fin ∧ s.prs.ph = .idle
  | .frmAll => s.status.busy = true ∧ s.frm.ph ≠ .idle ∧ s.frm.mode = .all ∧ s.prs.ph = .idle
  | .prsLine => s.status.busy = true ∧ s.frm.ph = .idle ∧ s.prs.mode = .line ∧ s.prs.ph ≠ .idle
  | .prsRead => s.status.busy = true ∧ s.frm.ph = .idle ∧ s.prs.mode = .read ∧ s.prs.ph ≠ .idle

/-- F_POS, F_K and F_REM in their ranges for the phase (10_state.md R29). -/
def Framer.inRange (f : Framer) : Prop :=
  match f.ph with
  | .idle => True
  | .line => f.pos = 0 ∨ (1 ≤ f.k.toNat ∧ f.k.toNat ≤ 16 ∧ f.pos.toNat ≤ 11 + 2 * f.k.toNat)
  | .eoflit => f.pos.toNat ≤ 10

/-- P_CNT and P_TYPE as the phase requires (42_parser.md R154, R157, R158). -/
def Parser.inRange (p : Parser) : Prop :=
  match p.ph with
  | .idle => True
  | .seek => True
  | .len => True
  | .adrh => p.cnt = p.len
  | .adrl => p.cnt = p.len
  | .type => p.cnt = p.len
  | .data => p.cnt ≠ 0 ∧ p.cnt.toNat ≤ p.len.toNat ∧ (p.type = 0 ∨ p.type = 1)
  | .cks => p.cnt = 0 ∧ (p.type = 0 ∨ p.type = 1)

/-- The result fields describe the last command (10_state.md R25, R31; 43_control.md R190, R196): they are clear until
DONE, OK is set exactly by a completion without failure, and EOF only with OK. -/
def Status.coherent (st : Status) : Prop :=
  (st.busy = true → st.done = false) ∧
  (st.ok = true ↔ st.done = true ∧ st.err = .none) ∧
  (st.err ≠ .none → st.done = true) ∧
  (st.eof = true → st.ok = true)

/-- The invariant of IHXC. -/
structure State.Inv (s : State) : Prop where
  op : s.opCoherent
  status : s.status.coherent
  frm : s.frm.inRange
  prs : s.prs.inRange
  /-- LEN and F_REM are LEN_BITS wide (10_state.md R24, R29). -/
  len : s.len.toNat < 2 ^ s.cfg.lenBits
  rem : s.frm.rem.toNat < 2 ^ s.cfg.lenBits
  /-- The image keeps its canonical form. -/
  mem : s.col.mem.wf

/-! ## Whole operations -/

/-- From `s`, left undisturbed, the machine ends as the procedure does: with the same collaborators, transaction
record included, and the STATUS of 43_control.md R196 or 60_exceptions.md R204; at a port that never answers it stays
where it is, busy (43_control.md R196, assumption log 8); at an unconnected port it is refused (70_reset_and_hazards.md
R233, assumption log 9); where the procedure has not ended it is as far, busy. -/
def settlesTo {α : Type} (s : State) (p : Proc α) (eofOf : α → Bool) : Prop :=
  match p with
  | .done a c => ∃ n t, run n s = .next t ∧ t.col = c ∧ t.status = s.status.completed true (eofOf a) .none ∧ t.idle ∧
      t.sameHost s
  | .failed k c => ∃ n t, run n s = .next t ∧ t.col = c ∧ t.status = s.status.completed false false k ∧ t.idle ∧
      t.sameHost s
  | .hung c => ∃ n t, run n s = .next t ∧ t.col = c ∧ t.status = s.status ∧ t.op = s.op ∧ t.sameHost s ∧
      step t = .next t
  | .unfinished c => ∃ n t, run n s = .next t ∧ t.col = c ∧ t.status = s.status ∧ t.op = s.op ∧ t.sameHost s
  | .refused q => ∃ n, run n s = .refused (.portUnconnected q)

/-- The step from `s` meets a port that never answers, its transactions before that one leaving `c`, and nothing ever
happens again (43_control.md R196, assumption log 8). -/
def State.stallsAt (s : State) (c : Collab) (p : Port) : Prop :=
  step s = .next { s with col := c, waiting := some p } ∧
    ∀ n, run n { s with col := c, waiting := some p } = .next { s with col := c, waiting := some p }

/-! ## Transactions -/

/-- The image after the MemWrites of a transaction record, in order. -/
def memAfter : Memory → List Transaction → Memory
  | m, [] => m
  | m, .memWrite a v :: ts => memAfter (m.write a v) ts
  | m, .memRead _ _ :: ts => memAfter m ts
  | m, .emit _ _ :: ts => memAfter m ts
  | m, .consume _ :: ts => memAfter m ts

/-- The characters the Emits of a record appended. -/
def emittedBy : List Transaction → List Byte
  | [] => []
  | .emit c .ok :: ts => c :: emittedBy ts
  | .emit _ .fault :: ts => emittedBy ts
  | .memWrite _ _ :: ts => emittedBy ts
  | .memRead _ _ :: ts => emittedBy ts
  | .consume _ :: ts => emittedBy ts

/-- The characters the Consumes of a record took. -/
def consumedBy : List Transaction → List Byte
  | [] => []
  | .consume (.chr c) :: ts => c :: consumedBy ts
  | .consume .eoi :: ts => consumedBy ts
  | .consume .fault :: ts => consumedBy ts
  | .emit _ _ :: ts => consumedBy ts
  | .memWrite _ _ :: ts => consumedBy ts
  | .memRead _ _ :: ts => consumedBy ts

/-- The addresses the MemReads of a record read, in order. -/
def readAddrs : List Transaction → List Addr
  | [] => []
  | .memRead a _ :: ts => a :: readAddrs ts
  | .memWrite _ _ :: ts => readAddrs ts
  | .emit _ _ :: ts => readAddrs ts
  | .consume _ :: ts => readAddrs ts

/-- The addresses `a +16 0, ..., a +16 (n - 1)`. -/
def addrsFrom (a : Addr) (n : Nat) : List Addr := (List.range n).map fun i => a + BitVec.ofNat 16 i

/-- The transactions one step may perform (10_state.md R21): none, one, a MemRead with its Emit, or a Consume with its
MemWrite. -/
def oneStepTransactions (ts : List Transaction) : Prop :=
  ts = [] ∨ (∃ x, ts = [x]) ∨ (∃ a v c r, ts = [.memRead a v, .emit c r]) ∨
    (∃ r a v, ts = [.consume r, .memWrite a v])

/-- The framer's transactions: memory reads and emissions (10_state.md R33). -/
def Transaction.isFramer : Transaction → Bool
  | .memRead _ _ => true
  | .emit _ _ => true
  | .memWrite _ _ => false
  | .consume _ => false

/-- The parser's transactions: memory writes and consumptions (10_state.md R33). -/
def Transaction.isParser : Transaction → Bool
  | .memRead _ _ => false
  | .emit _ _ => false
  | .memWrite _ _ => true
  | .consume _ => true

/-- OP is a framer command. -/
def Op.isFramer : Op → Bool
  | .none => false
  | .frmData => true
  | .frmEnd => true
  | .frmAll => true
  | .prsLine => false
  | .prsRead => false

/-- OP is a parser command. -/
def Op.isParser : Op → Bool
  | .none => false
  | .frmData => false
  | .frmEnd => false
  | .frmAll => false
  | .prsLine => true
  | .prsRead => true

/-! ## Texts of records -/

/-- The bytes a text of hex pairs stands for (30_encoding.md R73); none where a character is no digit or one is left over. -/
def hexPairs : List Byte → Option (List Byte)
  | [] => some []
  | [_] => none
  | c1 :: c2 :: cs =>
    match hexval c1, hexval c2, hexPairs cs with
    | some hi, some lo, some bs => some (pairByte hi lo :: bs)
    | _, _, _ => none

/-- `text` is WS characters, then ':', then digits, of either case, of the record's bytes in order (30_encoding.md R70, R73;
42_parser.md R151). -/
def textOfRecord (cfg : Config) (r : Record) (text : List Byte) : Prop :=
  ∃ blanks digits, text = blanks ++ chColon :: digits ∧ (∀ c ∈ blanks, isWs cfg c = true) ∧ hexPairs digits = some r.bytes

/-- The cells a record's data goes to, in order: data byte i to `AAAA +16 i` (42_parser.md R158, R164). -/
def dataCells (a : Addr) : List Byte → List (Addr × Byte)
  | [] => []
  | b :: bs => (a, b) :: dataCells (a + 1) bs

/-- The texts of records one after another (42_parser.md R162; 00_scope.md R11, well-formed stream). -/
def textOfStream (cfg : Config) : List Record → List Byte → Prop
  | [], text => text = []
  | r :: rs, text => ∃ t₁ t₂, text = t₁ ++ t₂ ∧ textOfRecord cfg r t₁ ∧ textOfStream cfg rs t₂

/-- The cells of all the records of a stream, in stream order. -/
def streamCells : List Record → List (Addr × Byte)
  | [] => []
  | r :: rs => dataCells r.aaaa r.data ++ streamCells rs

end Sys2Proof.Machine
end

