-- ==== Sys2Proof/Certificates/Slice0/Obligations.lean ====
section
/-! DEFINITION. The statements about IHXC, for the provers. Each docstring names the rule or section it formalises. -/

section
open Sys2Proof Sys2Proof.Machine

/-! ## Encodings and texts -/

/-- 30_encoding.md R76, R81, R82: words written out from the encodings decode to the instructions they stand for. -/
def Obligations.WrittenWordsDecode : Prop :=
  decodeCommand 0x00000000 = .ok .nop ∧
  decodeCommand 0x00000001 = .ok .ckClr ∧
  decodeCommand 0x0000AA02 = .ok (.ckAdd 0xAA) ∧
  decodeCommand 0x00000005 = .ok .frmAll ∧
  decodeCommand 0x00000007 = .ok .prsRead ∧
  decodeHeader 0x03100000 = .ok (.recData 0x03 0x1000) ∧
  decodeHeader 0x00123401 = .ok (.recEof 0x00 0x1234)

/-- 30_encoding.md R76, R82: decoding an encoded instruction in its own space gives it back, every operand at every value,
and a word that decodes to an instruction is the encoding of it, so each word has one meaning in its space. -/
def Obligations.DecodeEncodeAgree : Prop :=
  (∀ i : Instr, decodeFor i (encode i) = .ok i) ∧
  (∀ (w : Word) (i : Instr), decodeCommand w = .ok i → i.isCommand = true ∧ encode i = w) ∧
  (∀ (w : Word) (i : Instr), decodeHeader w = .ok i → i.isCommand = false ∧ encode i = w)

/-- 30_encoding.md R82, "at most one row matches any word", and the same of the record rows of R76. -/
def Obligations.RowsAreDisjoint : Prop :=
  (∀ w : Word, ∀ r₁ ∈ commandRows, ∀ r₂ ∈ commandRows, r₁.hits w = true → r₂.hits w = true → r₁ = r₂) ∧
  (∀ w : Word, ∀ r₁ ∈ recordRows, ∀ r₂ ∈ recordRows, r₁.hits w = true → r₂.hits w = true → r₁ = r₂)

/-- 30_encoding.md R83: a word is ILLEGAL exactly when OP is 0x8 to 0xF or a reserved bit is set (for CK_ADD bits 31 to 16
or 7 to 4, for every other OP any of bits 31 to 4); every other word is one of the eight commands; an illegal word written
to CTRL with BUSY = 0 completes at once with OK = 0 and ERR = ILLEGAL_CMD. -/
def Obligations.IllegalWordsExactly : Prop :=
  (∀ w : Word, decodeCommand w = .error .illegalCommand ↔
    (8 ≤ (w.extractLsb' 0 4).toNat ∨ w.extractLsb' 4 4 ≠ 0 ∨ w.extractLsb' 16 16 ≠ 0 ∨
      (w.extractLsb' 0 4 ≠ 2 ∧ w.extractLsb' 8 8 ≠ 0))) ∧
  (∀ w : Word, decodeCommand w = .error .illegalCommand ∨ ∃ i : Instr, i.isCommand = true ∧ decodeCommand w = .ok i) ∧
  (∀ (s : State) (w : Word) (ms : List Move), s.agenda = .write regCtrl w :: ms → s.status.busy = false →
    decodeCommand w = .error .illegalCommand →
    ∃ t, step s = .next t ∧ t.status.busy = false ∧ t.status.done = true ∧ t.status.ok = false ∧
      t.status.err = .illegalCmd)

/-- 30_encoding.md R76, R77: a header is rejected exactly when TT is from 0x02 to 0xFF. -/
def Obligations.IllegalTypesExactly : Prop :=
  ∀ h : Word, decodeHeader h = .error .illegalType ↔ 2 ≤ (h.extractLsb' 0 8).toNat

/-- 30_encoding.md R73: which characters are hex digits and their values; the two digits of a pair, most significant
first; R74, R75: what the framer writes for a byte or an address is always two or four digits, none of them upper case,
and reads back as the byte or the address. -/
def Obligations.HexDigitsReadBack : Prop :=
  (∀ c : Byte, isHex c = true ↔
    (0x30 ≤ c.toNat ∧ c.toNat ≤ 0x39) ∨ (0x61 ≤ c.toNat ∧ c.toNat ≤ 0x66) ∨ (0x41 ≤ c.toNat ∧ c.toNat ≤ 0x46)) ∧
  (∀ (c : Byte) (v : Nib), hexval c = some v → v.toNat = c.toNat - 0x30 ∧ c.toNat ≤ 0x39 ∨
    v.toNat + 0x61 = c.toNat + 10 ∨ v.toNat + 0x41 = c.toNat + 10) ∧
  (∀ hi lo : Nib, (pairByte hi lo).toNat = hi.toNat * 16 + lo.toNat) ∧
  (∀ b : Byte, (hex2 b).length = 2 ∧ hexPairs (hex2 b) = some [b]) ∧
  (∀ a : Addr, (hex4 a).length = 4 ∧ hexPairs (hex4 a) = some [hiByte a, loByte a] ∧ addrOf (hiByte a) (loByte a) = a) ∧
  (∀ (b c : Byte), c ∈ hex2 b → c.toNat ≤ 0x39 ∨ 0x61 ≤ c.toNat) ∧
  (∀ (a : Addr) (c : Byte), c ∈ hex4 a → c.toNat ≤ 0x39 ∨ 0x61 ≤ c.toNat) ∧
  (∀ ahi alo : Byte, (addrOf ahi alo).toNat = ahi.toNat * 256 + alo.toNat)

/-- 41_framer.md R120, R127; 30_encoding.md R70, R79: a data line of 1 to 16 bytes is 12 + 2k characters, ':' first and
NEWLINE last, and the digits between them are those of a well-formed record of type 00 with the line's address and data. -/
def Obligations.DataLinesAreWellFormed : Prop :=
  ∀ (cfg : Config) (a : Addr) (d : List Byte), 1 ≤ d.length → d.length ≤ 16 →
    (lineText cfg a d).length = 12 + 2 * d.length ∧
    ∃ (digits : List Byte) (r : Record), lineText cfg a d = chColon :: digits ++ [cfg.newline] ∧
      hexPairs digits = some r.bytes ∧ r.wf = true ∧ r.ll.toNat = d.length ∧ r.aaaa = a ∧ r.tt = 0x00 ∧ r.data = d

/-- 41_framer.md R121, R127: the data text of n bytes is ceil(n / 16) lines, 12 characters each besides two for every
byte, and the bytes of its chunks are the image's bytes in ascending address order, modulo 65536. -/
def Obligations.ChunksCoverTheRange : Prop :=
  ∀ (cfg : Config) (m : Memory) (a : Addr) (n : Nat),
    (dataText cfg m a n).length = 12 * ((n + 15) / 16) + 2 * n ∧
    (List.range ((n + 15) / 16)).flatMap (chunkBytes m a n) = imageBytes m a n ∧
    ∀ j < (n + 15) / 16, 1 ≤ (chunkBytes m a n j).length ∧ (chunkBytes m a n j).length ≤ 16

/-! ## The checksum -/

/-- 40_checksum.md R100: `sum8` is the exact sum mod 256, 0 for the empty sequence, the same as an accumulator that wraps
after each addition, and the same under any order; `cks` is `(256 - sum8) mod 256`. -/
def Obligations.ChecksumFunction : Prop :=
  (∀ s : List Byte, (sum8 s).toNat = (s.map BitVec.toNat).sum % 256) ∧
  (∀ s : List Byte, (cks s).toNat = (256 - (sum8 s).toNat) % 256) ∧
  sum8 [] = 0 ∧
  (∀ s : List Byte, s.foldl (fun acc b => acc + b) 0 = sum8 s) ∧
  (∀ s t : List Byte, s.Perm t → cks s = cks t)

/-- 40_checksum.md R104, R105: appending the checksum makes the sum 0; `cks` of a concatenation; a sequence that sums to 0;
a single changed byte is always detected; and R104's equivalence with the checksum of the bytes before CC. -/
def Obligations.ChecksumLaws : Prop :=
  cks [] = 0 ∧
  (∀ s : List Byte, sum8 (s ++ [cks s]) = 0 ∧ cks (s ++ [cks s]) = 0) ∧
  (∀ s t : List Byte, cks (s ++ t) = cks s + cks t) ∧
  (∀ s : List Byte, sum8 s = 0 → cks s = 0) ∧
  (∀ (s t : List Byte) (b c : Byte), b ≠ c → sum8 (s ++ b :: t) ≠ sum8 (s ++ c :: t)) ∧
  (∀ (s : List Byte) (cc : Byte), validBytes (s ++ [cc]) = true ↔ cc = cks s)

/-! ## What a step runs -/

/-- 43_control.md R190, R195: a word written to CTRL is decoded, and the step is the instruction's meaning, or the illegal
command's, with the move taken off the agenda. -/
def Obligations.StepRunsTheCommand : Prop :=
  ∀ (s : State) (w : Word) (ms : List Move), s.agenda = .write regCtrl w :: ms →
    (∀ i : Instr, decodeCommand w = .ok i → step s = exec i { s with agenda := ms }) ∧
    (∀ e : DecodeError, decodeCommand w = .error e → step s = illegalCommand { s with agenda := ms })

/-- 42_parser.md R157, R165: when the second digit of TT arrives, the record type is decoded from the header, and the step
is the record type's meaning at the state after that Consume with P_ACC and P_NIB updated. The model's own: that this step
is the meaning of a record type (assumption log 17), and that IHXC moves when the agenda is empty, says so, or holds a wait
(logs 1, 2, 5). -/
def Obligations.StepRunsTheRecordType : Prop :=
  ∀ (s : State) (ms : List Move) (ch : Byte) (c : Collab) (v : Nib) (i : Instr),
    (s.agenda = .ihxc :: ms ∨ (s.agenda = [] ∧ ms = []) ∨
      (∃ rest, s.agenda = .wait :: rest ∧ ms = .wait :: rest ∧ s.status.busy = true)) →
    s.op.isParser = true → s.waiting = none →
    s.prs.ph = .type → s.prs.nib = true → s.col.consume = .answer (.chr ch) c → hexval ch = some v →
    decodeHeader (headerOf s.prs.cnt s.prs.addr (pairByte s.prs.hi v)) = .ok i →
    step s = exec i
      { s with
        agenda := ms
        col := c
        prs := { s.prs with acc := s.prs.acc + pairByte s.prs.hi v, nib := false } }

/-- Placing an instruction (assumption logs 3, 4; the model's own): a command, or a record header that is no command word,
runs as the very next step from any state; the states it runs in say what is changed, and all of it is what the fetch
needs. -/
def Obligations.PlacedInstructionRunsNext : Prop :=
  (∀ (s : State) (i : Instr), i.isCommand = true →
    decodeTableWord 32 (encode i).toNat = some i ∧
    step (s.withFetchWord 32 (encode i).toNat) = exec i
      { s with
        status := { s.status with busy := false }
        op := .none
        waiting := none
        frm := { s.frm with ph := .idle }
        prs := { s.prs with ph := .idle } }) ∧
  (∀ (s : State) (i : Instr) (h : Word), i.isCommand = false → h = encode i →
    decodeCommand h = .error .illegalCommand →
    decodeTableWord 32 h.toNat = some i ∧
    step (s.withFetchWord 32 h.toNat) = exec i
      { s with
        status := { busy := true, done := false, ok := false, eof := false, err := .none, drop := false }
        op := .prsLine
        waiting := none
        frm := { s.frm with ph := .idle }
        prs :=
          { ph := .type, nib := false, hi := hiNib (headerTt h), len := headerLl h, addr := headerAddr h, type := 0,
            cnt := headerLl h, mode := .line,
            acc := headerLl h + hiByte (headerAddr h) + loByte (headerAddr h) + headerTt h }
        col :=
          { s.col with
            inUp := true
            inPos := s.col.inPos + 1
            inDraws := []
            trace := s.col.trace ++ [.consume (.chr (digit (loNib (headerTt h))))] } })

/-- No meaning ever stops: every row of the opcode table answers a next state in every state (93_implementation_defined.md
16, 21: what is illegal is a failure the machine reports, not a stop). -/
def Obligations.EveryInstructionAnswersNext : Prop :=
  ∀ (i : Instr) (s : State), ∃ t, exec i s = .next t

/-! ## Commands that complete at acceptance -/

/-- 43_control.md R192: NOP. -/
def Obligations.NopCompletes : Prop :=
  decodeCommand 0x00000000 = .ok .nop ∧
  (∀ s : State, s.status.busy = false →
    exec .nop s = .next
      { s with
        status := { busy := false, done := true, ok := true, eof := false, err := .none, drop := false }
        op := .none
        waiting := none
        frm := { s.frm with ph := .idle }
        prs := { s.prs with ph := .idle } }) ∧
  (∀ s t : State, s.status.busy = false → s.ckAcc = 0 → exec .nop s = .next t → t.statusWord = 0x00000206)

/-- 40_checksum.md R101: CK_CLR. -/
def Obligations.CkClrCompletes : Prop :=
  encode .ckClr = 0x00000001 ∧ decodeCommand 0x00000001 = .ok .ckClr ∧
  (∀ s : State, s.status.busy = false →
    exec .ckClr s = .next
      { s with
        ckAcc := 0
        status := { busy := false, done := true, ok := true, eof := false, err := .none, drop := false }
        op := .none
        waiting := none
        frm := { s.frm with ph := .idle }
        prs := { s.prs with ph := .idle } }) ∧
  (∀ s t : State, s.status.busy = false → exec .ckClr s = .next t →
    t.ckz = true ∧ t.regValue regCkAcc = 0 ∧ t.regValue regCkOut = 0) ∧
  (∀ s : State, s.status.busy = true → exec .ckClr s = .next { s with status := { s.status with drop := true } })

/-- 40_checksum.md R102: CK_ADD, for every BYTE. -/
def Obligations.CkAddCompletes : Prop :=
  (∀ b : Byte, encode (.ckAdd b) = 0x00000002 ||| (b.zeroExtend 32 <<< 8) ∧
    decodeCommand (0x00000002 ||| (b.zeroExtend 32 <<< 8)) = .ok (.ckAdd b)) ∧
  (∀ (b : Byte) (s : State), s.status.busy = false →
    exec (.ckAdd b) s = .next
      { s with
        ckAcc := s.ckAcc + b
        status := { busy := false, done := true, ok := true, eof := false, err := .none, drop := false }
        op := .none
        waiting := none
        frm := { s.frm with ph := .idle }
        prs := { s.prs with ph := .idle } }) ∧
  (∀ (b : Byte) (s t : State), s.status.busy = false → exec (.ckAdd b) s = .next t →
    t.ckz = (s.ckAcc + b == 0) ∧ t.ckAcc.toNat = (s.ckAcc.toNat + b.toNat) % 256 ∧
    t.regValue regCkOut = (-(s.ckAcc + b)).zeroExtend 32) ∧
  (∀ w : Word, w.extractLsb' 0 4 = 2 → (w.extractLsb' 4 4 ≠ 0 ∨ w.extractLsb' 16 16 ≠ 0) →
    decodeCommand w = .error .illegalCommand ∧ ∀ s : State, ∃ t, ctrlWrite w s = .next t ∧ t.ckAcc = s.ckAcc)

/-- 43_control.md R193: an illegal word on an idle machine changes STATUS alone; the corner words; the example. -/
def Obligations.IllegalCommandCompletes : Prop :=
  (∀ (s : State) (w : Word), s.idle → decodeCommand w = .error .illegalCommand →
    ctrlWrite w s = .next
      { s with
        status := { busy := false, done := true, ok := false, eof := false, err := .illegalCmd, drop := false } }) ∧
  (∀ (s t : State) (w : Word), s.idle → s.ckAcc = 0 → decodeCommand w = .error .illegalCommand →
    ctrlWrite w s = .next t → t.statusWord = 0x00000282) ∧
  decodeCommand 0x00000102 = .ok (.ckAdd 0x01) ∧
  decodeCommand 0x00000012 = .error .illegalCommand ∧ decodeCommand 0x00010002 = .error .illegalCommand ∧
  decodeCommand 0x00000103 = .error .illegalCommand ∧ decodeCommand 0x00000008 = .error .illegalCommand ∧
  decodeCommand 0x0000000f = .error .illegalCommand

/-- 30_encoding.md R85, 40_checksum.md R103, R104: `ck.compute` on an idle machine leaves CK_ACC = sum8 of its bytes and
returns their checksum, and `ck.verify` returns a STATUS whose CKZ says whether they are valid, for every byte list. R85
gives the form with no byte for `ck.compute` only: that of `ck.verify` is the model's choice (assumption log 19). -/
def Obligations.CkComputeAndVerify : Prop :=
  (∀ (s : State) (bs : List Byte) (ms : List Move), s.status.busy = false → s.agenda = ckCompute bs ++ ms →
    ∃ t, run (bs.length + 2) s = .next t ∧ t.ckAcc = sum8 bs ∧ t.rdata = (cks bs).zeroExtend 32 ∧ t.agenda = ms ∧
      t.status.busy = false ∧ t.status.ok = true ∧ t.col = s.col) ∧
  (∀ (s : State) (bs : List Byte) (ms : List Move), s.status.busy = false → s.agenda = ckVerify bs ++ ms →
    ∃ t, run (bs.length + 2) s = .next t ∧ t.rdata = t.statusWord ∧ t.rdata.getLsbD 9 = validBytes bs ∧
      t.agenda = ms ∧ t.col = s.col)

/-! ## Acceptance and dropping -/

/-- 43_control.md R190: the state after acceptance of each command, everything else unchanged; the four that complete at
once leave BUSY = 0 and perform no port transaction (F_MODE and F_PH as 41_framer.md R122 to R124 set them). -/
def Obligations.AcceptanceStep : Prop :=
  (∀ s : State, s.status.busy = false →
    exec .frmData s = .next
      { s with
        status := { busy := true, done := false, ok := false, eof := false, err := .none, drop := false }
        op := .frmData
        waiting := none
        frm := { s.frm with mode := .data, ph := .line, addr := s.addr, rem := lenField s.cfg s.len, pos := 0 } }) ∧
  (∀ s : State, s.status.busy = false →
    exec .frmAll s = .next
      { s with
        status := { busy := true, done := false, ok := false, eof := false, err := .none, drop := false }
        op := .frmAll
        waiting := none
        frm := { s.frm with mode := .all, ph := .line, addr := s.addr, rem := lenField s.cfg s.len, pos := 0 } }) ∧
  (∀ s : State, s.status.busy = false →
    exec .frmEnd s = .next
      { s with
        status := { busy := true, done := false, ok := false, eof := false, err := .none, drop := false }
        op := .frmEnd
        waiting := none
        frm := { s.frm with mode := .fin, ph := .eoflit, pos := 0 } }) ∧
  (∀ s : State, s.status.busy = false →
    exec .prsLine s = .next
      { s with
        status := { busy := true, done := false, ok := false, eof := false, err := .none, drop := false }
        op := .prsLine
        waiting := none
        prs := { s.prs with ph := .seek, mode := .line } }) ∧
  (∀ s : State, s.status.busy = false →
    exec .prsRead s = .next
      { s with
        status := { busy := true, done := false, ok := false, eof := false, err := .none, drop := false }
        op := .prsRead
        waiting := none
        prs := { s.prs with ph := .seek, mode := .read } }) ∧
  (∀ (s : State) (w : Word) (r : Except DecodeError Instr), s.status.busy = false → decodeCommand w = r →
    (r = .ok .nop ∨ r = .ok .ckClr ∨ (∃ b, r = .ok (.ckAdd b)) ∨ r = .error .illegalCommand) →
    ∃ t, ctrlWrite w s = .next t ∧ t.status.busy = false ∧ t.status.done = true ∧ t.status.drop = false ∧
      t.op = .none ∧ t.col = s.col)

/-- 43_control.md R191: any word written to CTRL while BUSY = 1 sets DROP and changes nothing else. -/
def Obligations.CommandWhileBusyIsDropped : Prop :=
  ∀ (s : State) (w : Word) (ms : List Move), s.agenda = .write regCtrl w :: ms → s.status.busy = true →
    step s = .next { s with agenda := ms, status := { s.status with drop := true } }

/-- 42_parser.md R163, R164, R165: a record type's own effect once its header is read, the same for both types but for
P_TYPE: LL bytes to go to cells from AAAA on, or straight to the checksum when LL = 0; nothing else changes. -/
def Obligations.RecordTypesBeginPayload : Prop :=
  (∀ (ll : Byte) (aaaa : Addr) (s : State),
    exec (.recData ll aaaa) s = .next
      { s with prs := { s.prs with type := 0x00, cnt := ll, addr := aaaa, ph := if ll = 0 then .cks else .data } }) ∧
  (∀ (ll : Byte) (aaaa : Addr) (s : State),
    exec (.recEof ll aaaa) s = .next
      { s with prs := { s.prs with type := 0x01, cnt := ll, addr := aaaa, ph := if ll = 0 then .cks else .data } })

/-! ## The host's registers -/

/-- 43_control.md R194: a read of every register, at any time, returns its value and changes nothing else. -/
def Obligations.RegisterReads : Prop :=
  ∀ (s : State) (r : BitVec 3) (ms : List Move), s.agenda = .read r :: ms →
    step s = .next { s with agenda := ms, rdata := s.regValue r } ∧
    s.regValue 0 = 0 ∧ s.regValue 1 = s.statusWord ∧ s.regValue 2 = s.addr.zeroExtend 32 ∧ s.regValue 3 = s.len ∧
    s.regValue 4 = s.ckAcc.zeroExtend 32 ∧ s.regValue 5 = (-s.ckAcc).zeroExtend 32 ∧ s.regValue 6 = 0 ∧
    s.regValue 7 = 0

/-- 10_state.md R25, 60_exceptions.md R200: the bits of STATUS, CKZ live, bits 31 to 10 zero, and the ERR codes. -/
def Obligations.StatusFields : Prop :=
  (∀ s : State, s.statusWord.getLsbD 0 = s.status.busy ∧ s.statusWord.getLsbD 1 = s.status.done ∧
    s.statusWord.getLsbD 2 = s.status.ok ∧ s.statusWord.getLsbD 3 = s.status.eof ∧
    s.statusWord.extractLsb' 4 4 = s.status.err.code ∧ s.statusWord.getLsbD 8 = s.status.drop ∧
    s.statusWord.getLsbD 9 = (s.ckAcc == 0) ∧ s.statusWord.extractLsb' 10 22 = 0) ∧
  FailKind.code .none = 0 ∧ FailKind.code .badStart = 1 ∧ FailKind.code .badHex = 2 ∧ FailKind.code .badType = 3 ∧
  FailKind.code .badChecksum = 4 ∧ FailKind.code .endOfInput = 5 ∧ FailKind.code .inputFault = 6 ∧
  FailKind.code .emitFault = 7 ∧ FailKind.code .illegalCmd = 8

/-- 43_control.md R195: a write to CTRL is a command; ADDR and LEN take their fields; a write to any other register is
ignored; and none of these touches a running operation. -/
def Obligations.RegisterWrites : Prop :=
  ∀ (s : State) (r : BitVec 3) (w : Word) (ms : List Move), s.agenda = .write r w :: ms →
    (r = 0 → step s = ctrlWrite w { s with agenda := ms }) ∧
    (r = 2 → step s = .next { s with agenda := ms, addr := w.extractLsb' 0 16 }) ∧
    (r = 3 → ∃ v : Word, v.toNat = w.toNat % 2 ^ s.cfg.lenBits % 2 ^ 32 ∧ step s = .next { s with agenda := ms, len := v }) ∧
    (r = 1 ∨ r = 4 ∨ r = 5 ∨ r = 6 ∨ r = 7 → step s = .next { s with agenda := ms })

/-- 10_state.md R27, 70_reset_and_hazards.md R240: a running operation does not depend on ADDR and LEN: an IHXC step with
other values there does the same to everything else and leaves them as they are. -/
def Obligations.RunningOperationIgnoresArguments : Prop :=
  ∀ (s t : State) (a : Addr) (l : Word), ihxcStep s = .next t →
    t.addr = s.addr ∧ t.len = s.len ∧ ihxcStep { s with addr := a, len := l } = .next { t with addr := a, len := l }

/-! ## Reset -/

/-- 70_reset_and_hazards.md R230, 10_state.md R38: reset asserted in any state sets every piece of IHXC state to its reset
value in one step and leaves the collaborators alone; the state right after reset has the same values. -/
def Obligations.ResetValues : Prop :=
  (∀ (s : State) (ms : List Move), s.agenda = .reset :: ms →
    ∃ t, step s = .next t ∧ t.statusWord = 0x00000200 ∧ t.addr = 0 ∧ t.len = 0 ∧ t.ckAcc = 0 ∧
      t.regValue regCkOut = 0 ∧ t.op = .none ∧
      t.prs = { ph := .idle, nib := false, hi := 0, len := 0, addr := 0, type := 0, cnt := 0, acc := 0, mode := .line } ∧
      t.frm = { mode := .data, ph := .idle, addr := 0, rem := 0, k := 0, pos := 0, acc := 0, d := 0 } ∧
      t.col = s.col ∧ t.cfg = s.cfg ∧ t.agenda = ms) ∧
  State.reset.statusWord = 0x00000200 ∧ State.reset.addr = 0 ∧ State.reset.len = 0 ∧ State.reset.ckAcc = 0 ∧
  State.reset.op = .none ∧
  State.reset.prs =
    { ph := .idle, nib := false, hi := 0, len := 0, addr := 0, type := 0, cnt := 0, acc := 0, mode := .line } ∧
  State.reset.frm = { mode := .data, ph := .idle, addr := 0, rem := 0, k := 0, pos := 0, acc := 0, d := 0 }

/-- 70_reset_and_hazards.md R231, R232: reset in the middle of an operation abandons it: every transaction already
performed stays, none of its later ones ever happens, and DONE stays 0 while nobody writes CTRL. -/
def Obligations.ResetAbandonsTheOperation : Prop :=
  ∀ s : State, s.agenda = [.reset] →
    ∃ t, step s = .next t ∧ t.col = s.col ∧ t.status.done = false ∧ t.status.busy = false ∧ ∀ n, run n t = .next t

/-! ## Whole-machine rules -/

/-- The invariant (10_state.md R28 to R31; the image's canonical form) holds right after reset. -/
def Obligations.ResetIsCoherent : Prop := State.reset.Inv

/-- Every step, of any agent, keeps the invariant: OP agrees with BUSY, phases and modes (10_state.md R28 to R30), the
counters stay in range (R29), the result fields describe the last command (R25, R31), the image keeps its canonical form. -/
def Obligations.StepKeepsCoherence : Prop :=
  ∀ s t : State, s.Inv → step s = .next t → t.Inv

/-- A coherent state never faults: the only fault of the model is met in no run (assumption log 13). -/
def Obligations.CoherentStateNeverFaults : Prop :=
  ∀ (s : State) (f : Fault), s.Inv → step s ≠ .fault f

/-- 70_reset_and_hazards.md R233, R236: a step is refused only for a port nothing is connected to, or for a platform move
while an operation runs; such a move is always refused. -/
def Obligations.RefusalsExactly : Prop :=
  (∀ (s : State) (r : Refusal), step s = .refused r →
    (∃ p ms, r = .foreignAccess ∧ s.agenda = .platform p :: ms ∧ s.status.busy = true) ∨
    (r = .portUnconnected .mem ∧ s.col.memUp = false) ∨ (r = .portUnconnected .inp ∧ s.col.inUp = false) ∨
    (r = .portUnconnected .out ∧ s.col.outUp = false)) ∧
  (∀ (s : State) (p : PlatformMove) (ms : List Move), s.agenda = .platform p :: ms → s.status.busy = true →
    step s = .refused .foreignAccess)

/-- 10_state.md R21, R33 to R37; 20_memory.md R57; 60_exceptions.md R205: every step but the platform's adds to the record
at most one transaction, or a MemRead with its Emit, or a Consume with its MemWrite; the framer's are MemReads and Emits,
the parser's Consumes and MemWrites, an idle machine's none; and the image, the output and the input change exactly as the
added transactions say, so nothing is ever undone. The record and the endless input are the model's (logs 15, 23). -/
def Obligations.StepTransactions : Prop :=
  ∀ s t : State, step s = .next t → (∀ p ms, s.agenda ≠ .platform p :: ms) →
    ∃ ts, t.col.trace = s.col.trace ++ ts ∧ oneStepTransactions ts ∧
      t.col.mem = memAfter s.col.mem ts ∧ t.col.outText = s.col.outText ++ emittedBy ts ∧
      (∀ n, t.col.ahead n = s.col.ahead ((consumedBy ts).length + n)) ∧
      (∀ n < (consumedBy ts).length, s.col.ahead n = (consumedBy ts)[n]?) ∧ t.col.inPos = s.col.inPos + (consumedBy ts).length ∧
      (s.op.isFramer = true → ts.all Transaction.isFramer = true) ∧
      (s.op.isParser = true → ts.all Transaction.isParser = true) ∧ (s.op = .none → ts = [])

/-- 10_state.md R26: CK_ACC changes only by an accepted CK_CLR or CK_ADD, or by reset. -/
def Obligations.CkAccChangesOnlyByTheCku : Prop :=
  ∀ s t : State, step s = .next t → t.ckAcc ≠ s.ckAcc →
    (∃ ms, s.agenda = .reset :: ms) ∨
    (∃ w ms, s.agenda = .write regCtrl w :: ms ∧ s.status.busy = false ∧
      (decodeCommand w = .ok .ckClr ∨ ∃ b, decodeCommand w = .ok (.ckAdd b) ∧ t.ckAcc = s.ckAcc + b))

/-- 10_state.md R27: ADDR and LEN change only by the host's writes to them, or by reset: the framer and the parser never
write them. -/
def Obligations.ArgumentsChangeOnlyByTheHost : Prop :=
  ∀ s t : State, step s = .next t →
    (t.addr ≠ s.addr → (∃ ms, s.agenda = .reset :: ms) ∨ ∃ w ms, s.agenda = .write regAddr w :: ms) ∧
    (t.len ≠ s.len → (∃ ms, s.agenda = .reset :: ms) ∨ ∃ w ms, s.agenda = .write regLen w :: ms)

/-- 00_scope.md R5, 10_state.md R22: the configuration is never changed, by any agent. -/
def Obligations.ConfigurationNeverChanges : Prop :=
  ∀ (n : Nat) (s t : State), run n s = .next t → t.cfg = s.cfg

/-- 10_state.md R31, 43_control.md R191, R196: while an operation runs on, DONE, OK, EOF, ERR and OP stay as acceptance left
them, and DROP changes only by a CTRL write, to 1. -/
def Obligations.FlagsHoldWhileBusy : Prop :=
  ∀ s t : State, s.Inv → step s = .next t → s.status.busy = true → t.status.busy = true →
    t.op = s.op ∧ t.status = { s.status with drop := t.status.drop } ∧
    (t.status.drop ≠ s.status.drop → t.status.drop = true ∧ ∃ w ms, s.agenda = .write regCtrl w :: ms)

/-- 43_control.md R196, 60_exceptions.md R204, 70_reset_and_hazards.md R231: BUSY falls only by a completion, with OK and
ERR = NONE or with a failure kind and OK = EOF = 0, DROP left alone, the machine idle and the host's registers untouched;
or by reset. -/
def Obligations.BusyEndsByCompletionOrReset : Prop :=
  ∀ s t : State, s.Inv → step s = .next t → s.status.busy = true → t.status.busy = false →
    (∃ ms, s.agenda = .reset :: ms) ∨
    (t.idle ∧ t.addr = s.addr ∧ t.len = s.len ∧ t.ckAcc = s.ckAcc ∧
      ((∃ e, t.status = s.status.completed true e .none) ∨
        ∃ k, k ≠ .none ∧ k ≠ .illegalCmd ∧ t.status = s.status.completed false false k))

/-- 60_exceptions.md R215, 70_reset_and_hazards.md R232: with no operation and nothing on the agenda all state survives;
right after reset nothing happens until the host writes CTRL. -/
def Obligations.IdleStateSurvives : Prop :=
  (∀ (s : State) (n : Nat), s.op = .none → s.agenda = [] → run n s = .next s) ∧
  ∀ n : Nat, run n State.reset = .next State.reset

/-- 43_control.md R196, 93_implementation_defined.md 5: the step that meets a port that never answers keeps the
transactions it performed before, changes nothing else, and no further step ever happens, also under a host that waits:
BUSY = 1 for ever. At IN; at MEM, by a MemWrite after its Consume or by a MemRead; at OUT, alone or after its MemRead. That
MEM can be such a port is the model's choice (assumption log 22), and so is how the waiting is held (log 8). -/
def Obligations.SilentPortKeepsBusy : Prop :=
  ∀ s : State, s.Inv → s.undisturbed → s.waiting = none →
    (∀ ds, s.op.isParser = true → s.col.inUp = true → s.col.inDraws = .silent :: ds → s.stallsAt s.col .inp) ∧
    (∀ (ch : Byte) (c : Collab) (ds : List MemDraw), s.op.isParser = true → s.prs.ph = .data → s.prs.nib = true →
      s.col.consume = .answer (.chr ch) c → isHex ch = true → s.col.memUp = true → s.col.memDraws = .silent :: ds →
      s.stallsAt c .mem) ∧
    (∀ ds, s.op.isFramer = true → ¬ (s.op = .frmData ∧ s.frm.pos = 0 ∧ s.frm.rem = 0) →
      ¬ (s.frm.ph = .line ∧ atDataByte s.frm = true) → s.col.outUp = true → s.col.outDraws = .silent :: ds →
      s.stallsAt s.col .out) ∧
    (∀ ds, s.op.isFramer = true → s.frm.ph = .line → atDataByte s.frm = true → s.col.memUp = true →
      s.col.memDraws = .silent :: ds → s.stallsAt s.col .mem) ∧
    (∀ (v : Byte) (c : Collab) (ds : List Draw), s.op.isFramer = true → s.frm.ph = .line → atDataByte s.frm = true →
      s.col.memRead (dataByteAddr s.frm) = .answer v c → s.col.outUp = true → s.col.outDraws = .silent :: ds →
      s.stallsAt c .out)

/-- 43_control.md R196, 42_parser.md R151, 93_implementation_defined.md 5: a parser command fed an endless run of whitespace
takes one character a step for ever, BUSY = 1, and does nothing else. That an endless input repeats a list is the model's
choice (assumption log 23). -/
def Obligations.EndlessBlanksKeepBusy : Prop :=
  ∀ (s : State) (i : Instr), (i = .prsLine ∨ i = .prsRead) → s.status.busy = false → s.undisturbed → s.col.inServes →
    (∀ c ∈ s.col.inText, isWs s.cfg c = true) → s.col.inLoop ≠ [] → (∀ c ∈ s.col.inLoop, isWs s.cfg c = true) →
    ∃ t, exec i s = .next t ∧
      ∀ n, ∃ u, run n t = .next u ∧ u.status = t.status ∧ u.status.busy = true ∧ u.op = t.op ∧ u.prs = t.prs ∧
        u.frm = s.frm ∧ u.sameHost s ∧ u.col.inPos = s.col.inPos + n ∧ u.col.mem = s.col.mem ∧
        u.col.outText = s.col.outText

/-- 10_state.md R21, R27; 43_control.md R191, R194, R195: a host that reads or writes a register while an operation runs
leaves alone everything the operation depends on: the units' registers, OP, CK_ACC, the ports and all of STATUS but DROP. -/
def Obligations.HostMovesLeaveTheOperationAlone : Prop :=
  ∀ (s : State) (m : Move) (ms : List Move), s.agenda = m :: ms → s.status.busy = true →
    ((∃ r, m = .read r) ∨ ∃ r w, m = .write r w) →
    ∃ t, step s = .next t ∧ t.col = s.col ∧ t.op = s.op ∧ t.waiting = s.waiting ∧ t.frm = s.frm ∧ t.prs = s.prs ∧
      t.cfg = s.cfg ∧ t.ckAcc = s.ckAcc ∧ t.status = { s.status with drop := t.status.drop } ∧ t.agenda = ms

/-! ## The framer, whole operations -/

/-- 41_framer.md R121, R122, R125: FRM_DATA, accepted with its ports connected and a sink that serves every call, appends
exactly the text of R121 and completes with OK = 1, EOF = 0, after max(C, 1) steps and not before; it reads each byte once,
in ascending order modulo 65536, writes no memory and consumes nothing; the host's and the parser's registers are left
alone. The host at most waits meanwhile. -/
def Obligations.FrmDataEmitsTheDataText : Prop :=
  ∀ (s : State) (n : Nat) (text : List Byte), s.status.busy = false → s.undisturbed → s.col.outServes →
    s.col.memServes → n = (lenField s.cfg s.len).toNat →
    text = dataText s.cfg s.col.mem s.addr n →
    ∃ t u ts, exec .frmData s = .next t ∧ run (max text.length 1) t = .next u ∧
      (∀ m < max text.length 1, ∃ v, run m t = .next v ∧ v.status.busy = true) ∧
      u.status = { busy := false, done := true, ok := true, eof := false, err := .none, drop := false } ∧
      u.idle ∧ u.sameHost s ∧ u.prs = { s.prs with ph := .idle } ∧
      u.col.outText = s.col.outText ++ text ∧ u.col.mem = s.col.mem ∧
      u.col.inText = s.col.inText ∧ u.col.inPos = s.col.inPos ∧
      u.col.trace = s.col.trace ++ ts ∧ readAddrs ts = addrsFrom s.addr n

/-- 41_framer.md R123, 30_encoding.md R78, 70_reset_and_hazards.md R238: FRM_END appends the eleven characters of
`:00000001FF` and nothing else, without touching memory or input, and completes with OK = 1 in its eleventh step. The host
at most waits meanwhile. -/
def Obligations.FrmEndEmitsTheLiteral : Prop :=
  ∀ s : State, s.status.busy = false → s.undisturbed → s.col.outServes →
    ∃ t u ts, exec .frmEnd s = .next t ∧ run 11 t = .next u ∧
      (∀ m < 11, ∃ v, run m t = .next v ∧ v.status.busy = true) ∧
      u.status = { busy := false, done := true, ok := true, eof := false, err := .none, drop := false } ∧
      u.idle ∧ u.sameHost s ∧ u.prs = { s.prs with ph := .idle } ∧
      u.col.outText = s.col.outText ++ [0x3A, 0x30, 0x30, 0x30, 0x30, 0x30, 0x30, 0x30, 0x31, 0x46, 0x46] ∧
      u.col.mem = s.col.mem ∧ u.col.inText = s.col.inText ∧ u.col.inPos = s.col.inPos ∧
      u.col.trace = s.col.trace ++ ts ∧ readAddrs ts = []

/-- 41_framer.md R124, R125: FRM_ALL appends the data text and then the literal, with one completion at the end. The host at
most waits meanwhile. -/
def Obligations.FrmAllEmitsTheWholeText : Prop :=
  ∀ (s : State) (n : Nat) (text : List Byte), s.status.busy = false → s.undisturbed → s.col.outServes →
    s.col.memServes → n = (lenField s.cfg s.len).toNat →
    text = dataText s.cfg s.col.mem s.addr n ++ eofLiteral →
    ∃ t u ts, exec .frmAll s = .next t ∧ run text.length t = .next u ∧
      (∀ m < text.length, ∃ v, run m t = .next v ∧ v.status.busy = true) ∧
      u.status = { busy := false, done := true, ok := true, eof := false, err := .none, drop := false } ∧
      u.idle ∧ u.sameHost s ∧ u.prs = { s.prs with ph := .idle } ∧
      u.col.outText = s.col.outText ++ text ∧ u.col.mem = s.col.mem ∧
      u.col.inText = s.col.inText ∧ u.col.inPos = s.col.inPos ∧
      u.col.trace = s.col.trace ++ ts ∧ readAddrs ts = addrsFrom s.addr n

/-- 41_framer.md R126, 60_exceptions.md R204, R205: when the sink serves j calls and faults at the next, the j characters
stay emitted and nothing more is, the command completes with ERR = EMIT_FAULT in that step, memory is unchanged, and FRM_ALL
does not go on to the literal; IHXC does nothing more. FRM_END needs no memory. The host at most waits meanwhile. -/
def Obligations.EmitFaultEndsTheCommand : Prop :=
  ∀ (s : State) (i : Instr) (n j : Nat) (text : List Byte) (ds : List Draw), s.status.busy = false → s.undisturbed →
    s.col.outUp = true → (i = .frmEnd ∨ s.col.memServes) → n = (lenField s.cfg s.len).toNat →
    (i = .frmData ∧ text = dataText s.cfg s.col.mem s.addr n ∨ i = .frmEnd ∧ text = eofLiteral ∨
      i = .frmAll ∧ text = allText s.cfg s.col.mem s.addr n) →
    j < text.length → s.col.outDraws = List.replicate j .ok ++ .fault :: ds →
    ∃ t u, exec i s = .next t ∧ run (j + 1) t = .next u ∧
      u.status = { busy := false, done := true, ok := false, eof := false, err := .emitFault, drop := false } ∧
      u.idle ∧ u.sameHost s ∧ u.prs = { s.prs with ph := .idle } ∧
      u.col.outText = s.col.outText ++ text.take j ∧ u.col.mem = s.col.mem ∧
      u.col.outDraws = ds ∧ ihxcStep u = .next u

/-- 41_framer.md R122 to R126; 43_control.md R196, 70_reset_and_hazards.md R233: whatever sink and image answer and
whichever ports are connected, the framer's steps settle to what the pseudocode of the three commands does, transaction for
transaction. The model's own: what a port that never answers leaves (assumption logs 8, 22) and that an unconnected one is
refused (log 9). The host at most waits meanwhile. -/
def Obligations.FramerRefinesThePseudocode : Prop :=
  ∀ (s : State) (n : Nat), s.status.busy = false → s.undisturbed → n = (lenField s.cfg s.len).toNat →
    (∃ t, exec .frmData s = .next t ∧ settlesTo t (writeData s.cfg s.addr n s.col) fun _ => false) ∧
    (∃ t, exec .frmEnd s = .next t ∧ settlesTo t (writeEnd s.col) fun _ => false) ∧
    (∃ t, exec .frmAll s = .next t ∧ settlesTo t (writeAll s.cfg s.addr n s.col) fun _ => false)

/-! ## The parser, whole operations -/

/-- 42_parser.md R161, R162, R165: "This table performs exactly the port transactions of rules R161 and R162 in the same
order"; 43_control.md R196, 70_reset_and_hazards.md R233: whatever source and image answer and whichever ports are
connected, the parser's steps settle to what ReadRecord and read do, transaction for transaction, with the same outcome;
where the pseudocode has not ended after some characters of seek-start and some records, the machine is as far, busy; and on
an input that ends the pseudocode always ends. The model's own: what a port that never answers leaves (assumption logs 8,
22), that an unconnected one is refused (log 9), endless inputs (log 23). The host at most waits meanwhile. -/
def Obligations.ParserRefinesThePseudocode : Prop :=
  ∀ (s : State) (fuel turns : Nat), s.status.busy = false → s.undisturbed →
    (∃ t, exec .prsLine s = .next t ∧ settlesTo t (readRecord s.cfg fuel s.col) fun tt => tt == 0x01) ∧
    (∃ t, exec .prsRead s = .next t ∧ settlesTo t (readStream s.cfg fuel turns s.col) fun _ => true) ∧
    (s.col.inLoop = [] → s.col.inText.length < fuel → s.col.inText.length < turns →
      (∀ c, readRecord s.cfg fuel s.col ≠ .unfinished c) ∧ ∀ c, readStream s.cfg fuel turns s.col ≠ .unfinished c)

/-- 42_parser.md R161, R163, R164, R166: PRS_LINE on a well-formed record, in either case of digits and after any
whitespace, of either type and any LL from 0 to 255: it consumes exactly the record's text, writes its data bytes in order
to cells from AAAA on modulo 65536, and completes with OK = 1 and EOF as the type says; the output and the host's and the
framer's registers are left alone. The host at most waits meanwhile. -/
def Obligations.PrsLineReadsOneRecord : Prop :=
  ∀ (s : State) (r : Record) (text rest : List Byte), s.status.busy = false → s.undisturbed → s.col.inServes →
    s.col.memServes → s.cfg.startOk = true → r.wf = true →
    textOfRecord s.cfg r text → s.col.inText = text ++ rest →
    ∃ t u, exec .prsLine s = .next t ∧ run text.length t = .next u ∧
      u.status = { busy := false, done := true, ok := true, eof := r.tt == 0x01, err := .none, drop := false } ∧
      u.idle ∧ u.sameHost s ∧ u.frm = { s.frm with ph := .idle } ∧ u.col.inText = rest ∧ u.col.inPos = s.col.inPos + text.length ∧
      u.col.mem = s.col.mem.writeAll (dataCells r.aaaa r.data) ∧ u.col.outText = s.col.outText

/-- 42_parser.md R162, R163: PRS_READ on zero or more well-formed Data records and one well-formed EndOfFile record: it
writes every record's data in stream order, ends with OK = 1 and EOF = 1 at the EndOfFile record and consumes nothing after
it. The host at most waits meanwhile. -/
def Obligations.PrsReadReadsTheStream : Prop :=
  ∀ (s : State) (rs : List Record) (e : Record) (text rest : List Byte), s.status.busy = false → s.undisturbed →
    s.col.inServes → s.col.memServes → s.cfg.startOk = true →
    (∀ r ∈ rs, r.wf = true ∧ r.tt = 0x00) → e.wf = true → e.tt = 0x01 →
    textOfStream s.cfg (rs ++ [e]) text → s.col.inText = text ++ rest →
    ∃ t u, exec .prsRead s = .next t ∧ run text.length t = .next u ∧
      u.status = { busy := false, done := true, ok := true, eof := true, err := .none, drop := false } ∧
      u.idle ∧ u.sameHost s ∧ u.frm = { s.frm with ph := .idle } ∧ u.col.inText = rest ∧ u.col.inPos = s.col.inPos + text.length ∧
      u.col.mem = s.col.mem.writeAll (streamCells (rs ++ [e])) ∧ u.col.outText = s.col.outText

/-- 42_parser.md R159, R166, R167: a record whose sum is not 0 fails with BAD_CHECKSUM after its second checksum digit, all
its data bytes written and not undone. The host at most waits meanwhile. -/
def Obligations.BadChecksumKeepsTheData : Prop :=
  ∀ (s : State) (r : Record) (text rest : List Byte), s.status.busy = false → s.undisturbed → s.col.inServes →
    s.col.memServes → s.cfg.startOk = true → r.lengthOk = true → r.typeOk = true →
    r.sumOk = false → textOfRecord s.cfg r text → s.col.inText = text ++ rest →
    ∃ t u, exec .prsLine s = .next t ∧ run text.length t = .next u ∧
      u.status = { busy := false, done := true, ok := false, eof := false, err := .badChecksum, drop := false } ∧
      u.idle ∧ u.sameHost s ∧ u.frm = { s.frm with ph := .idle } ∧ u.col.inText = rest ∧ u.col.inPos = s.col.inPos + text.length ∧
      u.col.mem = s.col.mem.writeAll (dataCells r.aaaa r.data) ∧ u.col.outText = s.col.outText

/-- 42_parser.md R157, 60_exceptions.md R206: a record of illegal type fails with BAD_TYPE at its second type digit,
whatever follows: no data character is consumed and no byte is written. The host at most waits meanwhile. -/
def Obligations.BadTypeWritesNothing : Prop :=
  ∀ (s : State) (blanks digits rest : List Byte) (ll ahi alo tt : Byte), s.status.busy = false → s.undisturbed →
    s.col.inServes → s.cfg.startOk = true → (∀ c ∈ blanks, isWs s.cfg c = true) →
    hexPairs digits = some [ll, ahi, alo, tt] → 2 ≤ tt.toNat → s.col.inText = blanks ++ chColon :: digits ++ rest →
    ∃ t u, exec .prsLine s = .next t ∧ run (blanks.length + 9) t = .next u ∧
      u.status = { busy := false, done := true, ok := false, eof := false, err := .badType, drop := false } ∧
      u.idle ∧ u.sameHost s ∧ u.frm = { s.frm with ph := .idle } ∧ u.col.inText = rest ∧ u.col.inPos = s.col.inPos + blanks.length + 9 ∧
      u.col.mem = s.col.mem ∧ u.col.outText = s.col.outText

/-- 42_parser.md R153, R166, R167; 60_exceptions.md R205: a record that breaks off after the header and some of its data
bytes (all of them, when it breaks off in CC), at the first or the second digit of a pair, fails with BAD_HEX at a non-hex
character, which it consumes, or with END_OF_INPUT at the end of the text; the whole bytes read so far stay written. The
host at most waits meanwhile. -/
def Obligations.BrokenRecordKeepsWholeBytes : Prop :=
  ∀ (s : State) (blanks digits half tail : List Byte) (ll ahi alo tt : Byte) (bs : List Byte),
    s.status.busy = false → s.undisturbed → s.col.inServes → s.col.memServes →
    s.cfg.startOk = true → (∀ c ∈ blanks, isWs s.cfg c = true) → hexPairs digits = some ([ll, ahi, alo, tt] ++ bs) →
    (tt = 0x00 ∨ tt = 0x01) → bs.length ≤ ll.toNat → (half = [] ∨ ∃ c, half = [c] ∧ isHex c = true) →
    s.col.inText = blanks ++ chColon :: digits ++ half ++ tail →
    (∀ (c : Byte) (rest : List Byte), tail = c :: rest → isHex c = false →
      ∃ t u, exec .prsLine s = .next t ∧
        run (blanks.length + 1 + digits.length + half.length + 1) t = .next u ∧
        u.status = { busy := false, done := true, ok := false, eof := false, err := .badHex, drop := false } ∧
        u.idle ∧ u.sameHost s ∧ u.frm = { s.frm with ph := .idle } ∧ u.col.inText = rest ∧
        u.col.mem = s.col.mem.writeAll (dataCells (addrOf ahi alo) bs) ∧ u.col.outText = s.col.outText) ∧
    (tail = [] → s.col.inLoop = [] →
      ∃ t u, exec .prsLine s = .next t ∧
        run (blanks.length + 1 + digits.length + half.length + 1) t = .next u ∧
        u.status = { busy := false, done := true, ok := false, eof := false, err := .endOfInput, drop := false } ∧
        u.idle ∧ u.sameHost s ∧ u.frm = { s.frm with ph := .idle } ∧ u.col.inText = [] ∧
        u.col.mem = s.col.mem.writeAll (dataCells (addrOf ahi alo) bs) ∧ u.col.outText = s.col.outText)

/-- 42_parser.md R151, R152, R162: before a record, whitespace is skipped; the first other character, when it is not ':',
fails with BAD_START and is consumed, and a text of whitespace only (or empty) fails with END_OF_INPUT; nothing is written.
The same for PRS_LINE and PRS_READ. The host at most waits meanwhile. -/
def Obligations.SeekStartFailures : Prop :=
  ∀ (s : State) (i : Instr) (blanks tail : List Byte), (i = .prsLine ∨ i = .prsRead) → s.status.busy = false →
    s.undisturbed → s.col.inServes → (∀ c ∈ blanks, isWs s.cfg c = true) →
    s.col.inText = blanks ++ tail →
    (∀ (c : Byte) (rest : List Byte), tail = c :: rest → isWs s.cfg c = false → c ≠ chColon →
      ∃ t u, exec i s = .next t ∧ run (blanks.length + 1) t = .next u ∧
        u.status = { busy := false, done := true, ok := false, eof := false, err := .badStart, drop := false } ∧
        u.idle ∧ u.sameHost s ∧ u.frm = { s.frm with ph := .idle } ∧ u.col.inText = rest ∧
        u.col.mem = s.col.mem ∧ u.col.outText = s.col.outText) ∧
    (tail = [] → s.col.inLoop = [] →
      ∃ t u, exec i s = .next t ∧ run (blanks.length + 1) t = .next u ∧
        u.status = { busy := false, done := true, ok := false, eof := false, err := .endOfInput, drop := false } ∧
        u.idle ∧ u.sameHost s ∧ u.frm = { s.frm with ph := .idle } ∧ u.col.inText = [] ∧
        u.col.mem = s.col.mem ∧ u.col.outText = s.col.outText)

/-- 41_framer.md R127 (the source's round-trip property), 70_reset_and_hazards.md R241: PRS_READ on the text FRM_ALL emits
for n bytes at a of an image m ends with OK = 1 and EOF = 1 and nothing left over, and the image then holds m's byte at
every address of the range modulo 65536 and its old byte everywhere else. The host at most waits meanwhile. -/
def Obligations.RoundTripReproducesTheRange : Prop :=
  ∀ (s : State) (m : Memory) (a : Addr) (n : Nat), s.status.busy = false → s.undisturbed → s.col.inServes →
    s.col.memServes → s.cfg.startOk = true → s.cfg.newlineOk = true → s.col.mem.wf →
    s.col.inText = allText s.cfg m a n →
    ∃ t u k, exec .prsRead s = .next t ∧ run k t = .next u ∧
      u.status = { busy := false, done := true, ok := true, eof := true, err := .none, drop := false } ∧
      u.idle ∧ u.col.inText = [] ∧
      (∀ i < n, u.col.mem.read (a + BitVec.ofNat 16 i) = m.read (a + BitVec.ofNat 16 i)) ∧
      (∀ b : Addr, (∀ i < n, b ≠ a + BitVec.ofNat 16 i) → u.col.mem.read b = s.col.mem.read b)

end
end

