-- ==== Sys2Proof/Laws/Decode.lean ====
section
/-! SUPPORT. The fields of words as numbers: what appending, extracting and masking do (30_encoding.md R75, R76, R81), and
the record type of a header built from its fields. -/

namespace Sys2Proof

/-- Appending is shifting and adding. -/
theorem toNat_append_add {m n : Nat} (x : BitVec m) (y : BitVec n) : (x ++ y).toNat = x.toNat * 2 ^ n + y.toNat := by
  rw [BitVec.toNat_append, ← Nat.shiftLeft_add_eq_or_of_lt y.isLt, Nat.shiftLeft_eq]

theorem headerOf_toNat (ll : Byte) (aaaa : Addr) (tt : Byte) :
    (headerOf ll aaaa tt).toNat = ll.toNat * 2 ^ 24 + aaaa.toNat * 2 ^ 8 + tt.toNat := by
  have h : (headerOf ll aaaa tt).toNat = (ll ++ aaaa ++ tt).toNat := rfl
  rw [h, toNat_append_add, toNat_append_add]
  omega

theorem headerTt_toNat (h : Word) : (headerTt h).toNat = h.toNat % 2 ^ 8 := by simp [headerTt]

theorem headerAddr_toNat (h : Word) : (headerAddr h).toNat = h.toNat / 2 ^ 8 % 2 ^ 16 := by
  simp [headerAddr, Nat.shiftRight_eq_div_pow]

theorem headerLl_toNat (h : Word) : (headerLl h).toNat = h.toNat / 2 ^ 24 % 2 ^ 8 := by
  simp [headerLl, Nat.shiftRight_eq_div_pow]

@[simp] theorem headerTt_headerOf (ll : Byte) (aaaa : Addr) (tt : Byte) : headerTt (headerOf ll aaaa tt) = tt := by
  apply BitVec.eq_of_toNat_eq
  rw [headerTt_toNat, headerOf_toNat]
  omega

@[simp] theorem headerAddr_headerOf (ll : Byte) (aaaa : Addr) (tt : Byte) : headerAddr (headerOf ll aaaa tt) = aaaa := by
  apply BitVec.eq_of_toNat_eq
  rw [headerAddr_toNat, headerOf_toNat]
  omega

@[simp] theorem headerLl_headerOf (ll : Byte) (aaaa : Addr) (tt : Byte) : headerLl (headerOf ll aaaa tt) = ll := by
  apply BitVec.eq_of_toNat_eq
  rw [headerLl_toNat, headerOf_toNat]
  omega

/-- The low byte of a word as a mask (30_encoding.md R76). -/
theorem and_lowByte (h : Word) : (h &&& 0x000000FF).toNat = (headerTt h).toNat := by
  have : (0x000000FF : Word).toNat = 2 ^ 8 - 1 := rfl
  rw [BitVec.toNat_and, this, Nat.and_two_pow_sub_one_eq_mod, headerTt_toNat]

theorem rowRecData_hits (h : Word) : rowRecData.hits h = (headerTt h == 0x00) := by
  rw [Bool.eq_iff_iff]
  simp only [OpRow.hits, rowRecData, beq_iff_eq, ← BitVec.toNat_inj, and_lowByte]
  rfl

theorem rowRecEof_hits (h : Word) : rowRecEof.hits h = (headerTt h == 0x01) := by
  rw [Bool.eq_iff_iff]
  simp only [OpRow.hits, rowRecEof, beq_iff_eq, ← BitVec.toNat_inj, and_lowByte]
  rfl

/-- The record type of a header built from its fields (30_encoding.md R76, R77). -/
theorem decodeHeader_headerOf (ll : Byte) (aaaa : Addr) (tt : Byte) :
    decodeHeader (headerOf ll aaaa tt) =
      if tt = 0x00 then .ok (.recData ll aaaa) else if tt = 0x01 then .ok (.recEof ll aaaa) else .error .illegalType := by
  simp only [decodeHeader, rowRecData_hits, rowRecEof_hits, headerTt_headerOf, headerAddr_headerOf, headerLl_headerOf,
    beq_iff_eq]

end Sys2Proof
end

