-- ==== Sys2Proof/Laws/Memory.lean ====
section
/-! SUPPORT. The memory image: read after write, and the canonical form kept by every memory operation
(10_state.md R34, R35). -/

namespace Sys2Proof.Machine

theorem Memory.wf_nil : Memory.wf [] := ⟨List.Pairwise.nil, by simp⟩

/-- A key below every listed one is not listed. -/
theorem Memory.find_of_lt (m : Memory) (a : Nat) (h : ∀ c ∈ m, a < c.1) : m.find a = Memory.unlisted := by
  induction m with
  | nil => rfl
  | cons c m ih =>
    obtain ⟨k, w⟩ := c
    have hk : a < k := h (k, w) (by simp)
    have : ¬ k = a := by omega
    simp only [Memory.find, if_neg this]
    exact ih fun c hc => h c (by simp [hc])

/-- The keys of an updated list are the updated key and old keys. -/
theorem Memory.mem_put {m : Memory} {a : Nat} {v : Byte} {c : Host.Cell} (h : c ∈ m.put a v) :
    (c = (a, v) ∧ v ≠ Memory.unlisted) ∨ c ∈ m := by
  induction m with
  | nil =>
    simp only [Memory.put] at h
    split at h
    · simp at h
    · next hv => exact .inl ⟨by simpa using h, hv⟩
  | cons d m ih =>
    obtain ⟨k, w⟩ := d
    simp only [Memory.put] at h
    split at h
    · split at h
      · exact .inr h
      · next hv =>
        rcases List.mem_cons.mp h with rfl | h
        · exact .inl ⟨rfl, hv⟩
        · exact .inr h
    · split at h
      · split at h
        · exact .inr (List.mem_cons_of_mem _ h)
        · next hv =>
          rcases List.mem_cons.mp h with rfl | h
          · exact .inl ⟨rfl, hv⟩
          · exact .inr (List.mem_cons_of_mem _ h)
      · rcases List.mem_cons.mp h with rfl | h
        · exact .inr (by simp)
        · exact (ih h).imp id (List.mem_cons_of_mem _)

theorem Memory.put_pairwise {m : Memory} (a : Nat) (v : Byte) (h : m.Pairwise fun x y => x.1 < y.1) :
    (m.put a v).Pairwise fun x y => x.1 < y.1 := by
  induction m with
  | nil =>
    simp only [Memory.put]
    split <;> simp
  | cons d m ih =>
    obtain ⟨k, w⟩ := d
    obtain ⟨hk, hm⟩ := List.pairwise_cons.mp h
    simp only [Memory.put]
    split
    · next hlt =>
      split
      · exact h
      · refine List.pairwise_cons.mpr ⟨fun c hc => ?_, h⟩
        rcases List.mem_cons.mp hc with rfl | hc
        · exact hlt
        · exact Nat.lt_trans hlt (hk c hc)
    · split
      · next heq =>
        split
        · exact hm
        · refine List.pairwise_cons.mpr ⟨fun c hc => ?_, hm⟩
          have := hk c hc
          simp only at this ⊢
          omega
      · refine List.pairwise_cons.mpr ⟨fun c hc => ?_, ih hm⟩
        rcases Memory.mem_put hc with ⟨rfl, _⟩ | hc
        · simp only
          omega
        · exact hk c hc

theorem Memory.find_put_same {m : Memory} (a : Nat) (v : Byte) (h : m.Pairwise fun x y => x.1 < y.1) :
    (m.put a v).find a = v := by
  induction m with
  | nil =>
    simp only [Memory.put]
    split
    · next hv => simp [Memory.find, hv]
    · simp [Memory.find]
  | cons d m ih =>
    obtain ⟨k, w⟩ := d
    obtain ⟨hk, hm⟩ := List.pairwise_cons.mp h
    simp only [Memory.put]
    split
    · next hlt =>
      split
      · next hv =>
        rw [hv]
        refine Memory.find_of_lt _ _ fun c hc => ?_
        rcases List.mem_cons.mp hc with rfl | hc
        · exact hlt
        · exact Nat.lt_trans hlt (hk c hc)
      · simp [Memory.find]
    · split
      · next heq =>
        split
        · next hv =>
          rw [hv]
          exact Memory.find_of_lt _ _ fun c hc => by have := hk c hc; simp only at this; omega
        · simp [Memory.find]
      · next hne =>
        have : ¬ k = a := fun h' => hne h'.symm
        simp only [Memory.find, if_neg this]
        exact ih hm

theorem Memory.find_put_other {m : Memory} {a b : Nat} (v : Byte) (hab : b ≠ a) (h : m.Pairwise fun x y => x.1 < y.1) :
    (m.put a v).find b = m.find b := by
  have hba : ¬ a = b := fun h' => hab h'.symm
  induction m with
  | nil =>
    simp only [Memory.put]
    split <;> simp [Memory.find, hba]
  | cons d m ih =>
    obtain ⟨k, w⟩ := d
    obtain ⟨hk, hm⟩ := List.pairwise_cons.mp h
    simp only [Memory.put]
    split
    · split
      · rfl
      · simp [Memory.find, hba]
    · split
      · next heq =>
        subst heq
        split <;> simp [Memory.find, hba]
      · simp only [Memory.find]
        rw [ih hm]

/-- A read of the written cell (10_state.md R35). -/
theorem Memory.read_write_same {m : Memory} (h : m.wf) (a : Addr) (v : Byte) : (m.write a v).read a = v :=
  Memory.find_put_same _ _ h.1

/-- No other cell changes (10_state.md R35). -/
theorem Memory.read_write_other {m : Memory} (h : m.wf) {a b : Addr} (v : Byte) (hab : b ≠ a) :
    (m.write a v).read b = m.read b :=
  Memory.find_put_other _ (fun h' => hab (BitVec.eq_of_toNat_eq h')) h.1

theorem Memory.write_wf {m : Memory} (h : m.wf) (a : Addr) (v : Byte) : (m.write a v).wf := by
  refine ⟨Memory.put_pairwise _ _ h.1, fun c hc => ?_⟩
  rcases Memory.mem_put hc with ⟨rfl, hv⟩ | hc
  · exact ⟨a.isLt, hv⟩
  · exact h.2 c hc

theorem Memory.writeAll_wf {m : Memory} (h : m.wf) (cells : List (Addr × Byte)) : (m.writeAll cells).wf := by
  induction cells generalizing m with
  | nil => exact h
  | cons c cs ih => exact ih (Memory.write_wf h c.1 c.2)

theorem Memory.writeAll_append (m : Memory) (xs ys : List (Addr × Byte)) :
    m.writeAll (xs ++ ys) = (m.writeAll xs).writeAll ys := by
  induction xs generalizing m with
  | nil => rfl
  | cons x xs ih => exact ih _

/-- A listed cell is found. -/
theorem Memory.find_of_mem {m : Memory} (h : m.Pairwise fun x y => x.1 < y.1) {c : Host.Cell} (hc : c ∈ m) :
    m.find c.1 = c.2 := by
  induction m with
  | nil => simp at hc
  | cons d m ih =>
    obtain ⟨k, w⟩ := d
    obtain ⟨hk, hm⟩ := List.pairwise_cons.mp h
    rcases List.mem_cons.mp hc with rfl | hc'
    · simp [Memory.find]
    · have hlt : k < c.1 := hk c hc'
      have hne : ¬ k = c.1 := by omega
      simp only [Memory.find, if_neg hne]
      exact ih hm hc'

/-- Canonical images that read alike are the same list. -/
theorem Memory.eq_of_read_eq {m m' : Memory} (h : m.wf) (h' : m'.wf) (hr : ∀ a : Addr, m.read a = m'.read a) :
    m = m' := by
  have key : ∀ {p q : Memory}, p.wf → q.wf → (∀ a : Addr, p.read a = q.read a) → ∀ c ∈ p, c ∈ q := by
    intro p q hp hq hpq c hc
    have hlt := (hp.2 c hc).1
    have h1 := Memory.find_of_mem hp.1 hc
    have h2 : q.find c.1 = c.2 := by
      have := hpq (BitVec.ofNat 16 c.1)
      simp only [Memory.read, BitVec.toNat_ofNat, Nat.mod_eq_of_lt hlt] at this
      rw [← this, h1]
    have hne := (hp.2 c hc).2
    clear h1 hpq hp hc
    induction q with
    | nil => exact absurd h2.symm hne
    | cons d q ih =>
      obtain ⟨k, w⟩ := d
      simp only [Memory.find] at h2
      split at h2
      · next heq =>
        subst heq
        subst h2
        simp
      · exact List.mem_cons_of_mem _
          (ih ⟨(List.pairwise_cons.mp hq.1).2, fun x hx => hq.2 x (List.mem_cons_of_mem _ hx)⟩ h2)
  have sub := key h h' hr
  have sub' := key h' h fun a => (hr a).symm
  have irr : ∀ x y : Host.Cell, x.1 < y.1 → y.1 < x.1 → x = y := fun x y hx hy => absurd hx (by omega)
  exact List.Perm.eq_of_pairwise (fun x y _ _ hx hy => irr x y hx hy) h.1 h'.1
    ((List.perm_ext_iff_of_nodup (h.1.imp fun hlt he => by subst he; omega)
      (h'.1.imp fun hlt he => by subst he; omega)).mpr fun c => ⟨sub c, sub' c⟩)

end Sys2Proof.Machine
end

