-- ==== Sys2Proof/Laws/State.lean ====
section
/-! SUPPORT. One lemma per field per named update of State, true by rfl, so that no later proof unfolds a record update. -/

namespace Sys2Proof.Machine

@[simp] theorem State.complete_cfg (s : State) (ok eof : Bool) (err : FailKind) : (s.complete ok eof err).cfg = s.cfg := rfl
@[simp] theorem State.complete_status (s : State) (ok eof : Bool) (err : FailKind) :
    (s.complete ok eof err).status = s.status.completed ok eof err := rfl
@[simp] theorem State.complete_addr (s : State) (ok eof : Bool) (err : FailKind) : (s.complete ok eof err).addr = s.addr := rfl
@[simp] theorem State.complete_len (s : State) (ok eof : Bool) (err : FailKind) : (s.complete ok eof err).len = s.len := rfl
@[simp] theorem State.complete_ckAcc (s : State) (ok eof : Bool) (err : FailKind) : (s.complete ok eof err).ckAcc = s.ckAcc := rfl
@[simp] theorem State.complete_op (s : State) (ok eof : Bool) (err : FailKind) : (s.complete ok eof err).op = Op.none := rfl
@[simp] theorem State.complete_waiting (s : State) (ok eof : Bool) (err : FailKind) : (s.complete ok eof err).waiting = none := rfl
@[simp] theorem State.complete_frm (s : State) (ok eof : Bool) (err : FailKind) : (s.complete ok eof err).frm = { s.frm with ph := .idle } := rfl
@[simp] theorem State.complete_prs (s : State) (ok eof : Bool) (err : FailKind) : (s.complete ok eof err).prs = { s.prs with ph := .idle } := rfl
@[simp] theorem State.complete_col (s : State) (ok eof : Bool) (err : FailKind) : (s.complete ok eof err).col = s.col := rfl
@[simp] theorem State.complete_rdata (s : State) (ok eof : Bool) (err : FailKind) : (s.complete ok eof err).rdata = s.rdata := rfl
@[simp] theorem State.complete_agenda (s : State) (ok eof : Bool) (err : FailKind) : (s.complete ok eof err).agenda = s.agenda := rfl

@[simp] theorem State.fail_cfg (s : State) (k : FailKind) : (s.fail k).cfg = s.cfg := rfl
@[simp] theorem State.fail_status (s : State) (k : FailKind) : (s.fail k).status = s.status.completed false false k := rfl
@[simp] theorem State.fail_addr (s : State) (k : FailKind) : (s.fail k).addr = s.addr := rfl
@[simp] theorem State.fail_len (s : State) (k : FailKind) : (s.fail k).len = s.len := rfl
@[simp] theorem State.fail_ckAcc (s : State) (k : FailKind) : (s.fail k).ckAcc = s.ckAcc := rfl
@[simp] theorem State.fail_op (s : State) (k : FailKind) : (s.fail k).op = Op.none := rfl
@[simp] theorem State.fail_waiting (s : State) (k : FailKind) : (s.fail k).waiting = none := rfl
@[simp] theorem State.fail_frm (s : State) (k : FailKind) : (s.fail k).frm = { s.frm with ph := .idle } := rfl
@[simp] theorem State.fail_prs (s : State) (k : FailKind) : (s.fail k).prs = { s.prs with ph := .idle } := rfl
@[simp] theorem State.fail_col (s : State) (k : FailKind) : (s.fail k).col = s.col := rfl
@[simp] theorem State.fail_rdata (s : State) (k : FailKind) : (s.fail k).rdata = s.rdata := rfl
@[simp] theorem State.fail_agenda (s : State) (k : FailKind) : (s.fail k).agenda = s.agenda := rfl

@[simp] theorem State.accepted_cfg (s : State) : (s.accepted).cfg = s.cfg := rfl
@[simp] theorem State.accepted_status (s : State) : (s.accepted).status = Status.cleared := rfl
@[simp] theorem State.accepted_addr (s : State) : (s.accepted).addr = s.addr := rfl
@[simp] theorem State.accepted_len (s : State) : (s.accepted).len = s.len := rfl
@[simp] theorem State.accepted_ckAcc (s : State) : (s.accepted).ckAcc = s.ckAcc := rfl
@[simp] theorem State.accepted_op (s : State) : (s.accepted).op = s.op := rfl
@[simp] theorem State.accepted_waiting (s : State) : (s.accepted).waiting = s.waiting := rfl
@[simp] theorem State.accepted_frm (s : State) : (s.accepted).frm = s.frm := rfl
@[simp] theorem State.accepted_prs (s : State) : (s.accepted).prs = s.prs := rfl
@[simp] theorem State.accepted_col (s : State) : (s.accepted).col = s.col := rfl
@[simp] theorem State.accepted_rdata (s : State) : (s.accepted).rdata = s.rdata := rfl
@[simp] theorem State.accepted_agenda (s : State) : (s.accepted).agenda = s.agenda := rfl

@[simp] theorem State.dropped_cfg (s : State) : (s.dropped).cfg = s.cfg := rfl
@[simp] theorem State.dropped_status (s : State) : (s.dropped).status = { s.status with drop := true } := rfl
@[simp] theorem State.dropped_addr (s : State) : (s.dropped).addr = s.addr := rfl
@[simp] theorem State.dropped_len (s : State) : (s.dropped).len = s.len := rfl
@[simp] theorem State.dropped_ckAcc (s : State) : (s.dropped).ckAcc = s.ckAcc := rfl
@[simp] theorem State.dropped_op (s : State) : (s.dropped).op = s.op := rfl
@[simp] theorem State.dropped_waiting (s : State) : (s.dropped).waiting = s.waiting := rfl
@[simp] theorem State.dropped_frm (s : State) : (s.dropped).frm = s.frm := rfl
@[simp] theorem State.dropped_prs (s : State) : (s.dropped).prs = s.prs := rfl
@[simp] theorem State.dropped_col (s : State) : (s.dropped).col = s.col := rfl
@[simp] theorem State.dropped_rdata (s : State) : (s.dropped).rdata = s.rdata := rfl
@[simp] theorem State.dropped_agenda (s : State) : (s.dropped).agenda = s.agenda := rfl

@[simp] theorem State.begun_cfg (s : State) (o : Op) : (s.begun o).cfg = s.cfg := rfl
@[simp] theorem State.begun_status (s : State) (o : Op) : (s.begun o).status = { s.status with busy := true } := rfl
@[simp] theorem State.begun_addr (s : State) (o : Op) : (s.begun o).addr = s.addr := rfl
@[simp] theorem State.begun_len (s : State) (o : Op) : (s.begun o).len = s.len := rfl
@[simp] theorem State.begun_ckAcc (s : State) (o : Op) : (s.begun o).ckAcc = s.ckAcc := rfl
@[simp] theorem State.begun_op (s : State) (o : Op) : (s.begun o).op = o := rfl
@[simp] theorem State.begun_waiting (s : State) (o : Op) : (s.begun o).waiting = none := rfl
@[simp] theorem State.begun_frm (s : State) (o : Op) : (s.begun o).frm = s.frm := rfl
@[simp] theorem State.begun_prs (s : State) (o : Op) : (s.begun o).prs = s.prs := rfl
@[simp] theorem State.begun_col (s : State) (o : Op) : (s.begun o).col = s.col := rfl
@[simp] theorem State.begun_rdata (s : State) (o : Op) : (s.begun o).rdata = s.rdata := rfl
@[simp] theorem State.begun_agenda (s : State) (o : Op) : (s.begun o).agenda = s.agenda := rfl

@[simp] theorem State.withCkAcc_cfg (s : State) (v : Byte) : (s.withCkAcc v).cfg = s.cfg := rfl
@[simp] theorem State.withCkAcc_status (s : State) (v : Byte) : (s.withCkAcc v).status = s.status := rfl
@[simp] theorem State.withCkAcc_addr (s : State) (v : Byte) : (s.withCkAcc v).addr = s.addr := rfl
@[simp] theorem State.withCkAcc_len (s : State) (v : Byte) : (s.withCkAcc v).len = s.len := rfl
@[simp] theorem State.withCkAcc_ckAcc (s : State) (v : Byte) : (s.withCkAcc v).ckAcc = v := rfl
@[simp] theorem State.withCkAcc_op (s : State) (v : Byte) : (s.withCkAcc v).op = s.op := rfl
@[simp] theorem State.withCkAcc_waiting (s : State) (v : Byte) : (s.withCkAcc v).waiting = s.waiting := rfl
@[simp] theorem State.withCkAcc_frm (s : State) (v : Byte) : (s.withCkAcc v).frm = s.frm := rfl
@[simp] theorem State.withCkAcc_prs (s : State) (v : Byte) : (s.withCkAcc v).prs = s.prs := rfl
@[simp] theorem State.withCkAcc_col (s : State) (v : Byte) : (s.withCkAcc v).col = s.col := rfl
@[simp] theorem State.withCkAcc_rdata (s : State) (v : Byte) : (s.withCkAcc v).rdata = s.rdata := rfl
@[simp] theorem State.withCkAcc_agenda (s : State) (v : Byte) : (s.withCkAcc v).agenda = s.agenda := rfl

@[simp] theorem State.frameArgs_cfg (s : State) (m : FMode) : (s.frameArgs m).cfg = s.cfg := rfl
@[simp] theorem State.frameArgs_status (s : State) (m : FMode) : (s.frameArgs m).status = s.status := rfl
@[simp] theorem State.frameArgs_addr (s : State) (m : FMode) : (s.frameArgs m).addr = s.addr := rfl
@[simp] theorem State.frameArgs_len (s : State) (m : FMode) : (s.frameArgs m).len = s.len := rfl
@[simp] theorem State.frameArgs_ckAcc (s : State) (m : FMode) : (s.frameArgs m).ckAcc = s.ckAcc := rfl
@[simp] theorem State.frameArgs_op (s : State) (m : FMode) : (s.frameArgs m).op = s.op := rfl
@[simp] theorem State.frameArgs_waiting (s : State) (m : FMode) : (s.frameArgs m).waiting = s.waiting := rfl
@[simp] theorem State.frameArgs_frm (s : State) (m : FMode) :
    (s.frameArgs m).frm = { s.frm with mode := m, ph := .line, addr := s.addr, rem := lenField s.cfg s.len, pos := 0 } := rfl
@[simp] theorem State.frameArgs_prs (s : State) (m : FMode) : (s.frameArgs m).prs = s.prs := rfl
@[simp] theorem State.frameArgs_col (s : State) (m : FMode) : (s.frameArgs m).col = s.col := rfl
@[simp] theorem State.frameArgs_rdata (s : State) (m : FMode) : (s.frameArgs m).rdata = s.rdata := rfl
@[simp] theorem State.frameArgs_agenda (s : State) (m : FMode) : (s.frameArgs m).agenda = s.agenda := rfl

@[simp] theorem State.frameLiteral_cfg (s : State) (m : FMode) : (s.frameLiteral m).cfg = s.cfg := rfl
@[simp] theorem State.frameLiteral_status (s : State) (m : FMode) : (s.frameLiteral m).status = s.status := rfl
@[simp] theorem State.frameLiteral_addr (s : State) (m : FMode) : (s.frameLiteral m).addr = s.addr := rfl
@[simp] theorem State.frameLiteral_len (s : State) (m : FMode) : (s.frameLiteral m).len = s.len := rfl
@[simp] theorem State.frameLiteral_ckAcc (s : State) (m : FMode) : (s.frameLiteral m).ckAcc = s.ckAcc := rfl
@[simp] theorem State.frameLiteral_op (s : State) (m : FMode) : (s.frameLiteral m).op = s.op := rfl
@[simp] theorem State.frameLiteral_waiting (s : State) (m : FMode) : (s.frameLiteral m).waiting = s.waiting := rfl
@[simp] theorem State.frameLiteral_frm (s : State) (m : FMode) :
    (s.frameLiteral m).frm = { s.frm with mode := m, ph := .eoflit, pos := 0 } := rfl
@[simp] theorem State.frameLiteral_prs (s : State) (m : FMode) : (s.frameLiteral m).prs = s.prs := rfl
@[simp] theorem State.frameLiteral_col (s : State) (m : FMode) : (s.frameLiteral m).col = s.col := rfl
@[simp] theorem State.frameLiteral_rdata (s : State) (m : FMode) : (s.frameLiteral m).rdata = s.rdata := rfl
@[simp] theorem State.frameLiteral_agenda (s : State) (m : FMode) : (s.frameLiteral m).agenda = s.agenda := rfl

@[simp] theorem State.parseFrom_cfg (s : State) (m : PMode) : (s.parseFrom m).cfg = s.cfg := rfl
@[simp] theorem State.parseFrom_status (s : State) (m : PMode) : (s.parseFrom m).status = s.status := rfl
@[simp] theorem State.parseFrom_addr (s : State) (m : PMode) : (s.parseFrom m).addr = s.addr := rfl
@[simp] theorem State.parseFrom_len (s : State) (m : PMode) : (s.parseFrom m).len = s.len := rfl
@[simp] theorem State.parseFrom_ckAcc (s : State) (m : PMode) : (s.parseFrom m).ckAcc = s.ckAcc := rfl
@[simp] theorem State.parseFrom_op (s : State) (m : PMode) : (s.parseFrom m).op = s.op := rfl
@[simp] theorem State.parseFrom_waiting (s : State) (m : PMode) : (s.parseFrom m).waiting = s.waiting := rfl
@[simp] theorem State.parseFrom_frm (s : State) (m : PMode) : (s.parseFrom m).frm = s.frm := rfl
@[simp] theorem State.parseFrom_prs (s : State) (m : PMode) : (s.parseFrom m).prs = { s.prs with ph := .seek, mode := m } := rfl
@[simp] theorem State.parseFrom_col (s : State) (m : PMode) : (s.parseFrom m).col = s.col := rfl
@[simp] theorem State.parseFrom_rdata (s : State) (m : PMode) : (s.parseFrom m).rdata = s.rdata := rfl
@[simp] theorem State.parseFrom_agenda (s : State) (m : PMode) : (s.parseFrom m).agenda = s.agenda := rfl

@[simp] theorem State.withCol_cfg (s : State) (c : Collab) : (s.withCol c).cfg = s.cfg := rfl
@[simp] theorem State.withCol_status (s : State) (c : Collab) : (s.withCol c).status = s.status := rfl
@[simp] theorem State.withCol_addr (s : State) (c : Collab) : (s.withCol c).addr = s.addr := rfl
@[simp] theorem State.withCol_len (s : State) (c : Collab) : (s.withCol c).len = s.len := rfl
@[simp] theorem State.withCol_ckAcc (s : State) (c : Collab) : (s.withCol c).ckAcc = s.ckAcc := rfl
@[simp] theorem State.withCol_op (s : State) (c : Collab) : (s.withCol c).op = s.op := rfl
@[simp] theorem State.withCol_waiting (s : State) (c : Collab) : (s.withCol c).waiting = s.waiting := rfl
@[simp] theorem State.withCol_frm (s : State) (c : Collab) : (s.withCol c).frm = s.frm := rfl
@[simp] theorem State.withCol_prs (s : State) (c : Collab) : (s.withCol c).prs = s.prs := rfl
@[simp] theorem State.withCol_col (s : State) (c : Collab) : (s.withCol c).col = c := rfl
@[simp] theorem State.withCol_rdata (s : State) (c : Collab) : (s.withCol c).rdata = s.rdata := rfl
@[simp] theorem State.withCol_agenda (s : State) (c : Collab) : (s.withCol c).agenda = s.agenda := rfl

@[simp] theorem State.withAgenda_cfg (s : State) (ms : List Move) : (s.withAgenda ms).cfg = s.cfg := rfl
@[simp] theorem State.withAgenda_status (s : State) (ms : List Move) : (s.withAgenda ms).status = s.status := rfl
@[simp] theorem State.withAgenda_addr (s : State) (ms : List Move) : (s.withAgenda ms).addr = s.addr := rfl
@[simp] theorem State.withAgenda_len (s : State) (ms : List Move) : (s.withAgenda ms).len = s.len := rfl
@[simp] theorem State.withAgenda_ckAcc (s : State) (ms : List Move) : (s.withAgenda ms).ckAcc = s.ckAcc := rfl
@[simp] theorem State.withAgenda_op (s : State) (ms : List Move) : (s.withAgenda ms).op = s.op := rfl
@[simp] theorem State.withAgenda_waiting (s : State) (ms : List Move) : (s.withAgenda ms).waiting = s.waiting := rfl
@[simp] theorem State.withAgenda_frm (s : State) (ms : List Move) : (s.withAgenda ms).frm = s.frm := rfl
@[simp] theorem State.withAgenda_prs (s : State) (ms : List Move) : (s.withAgenda ms).prs = s.prs := rfl
@[simp] theorem State.withAgenda_col (s : State) (ms : List Move) : (s.withAgenda ms).col = s.col := rfl
@[simp] theorem State.withAgenda_rdata (s : State) (ms : List Move) : (s.withAgenda ms).rdata = s.rdata := rfl
@[simp] theorem State.withAgenda_agenda (s : State) (ms : List Move) : (s.withAgenda ms).agenda = ms := rfl

@[simp] theorem State.hostRead_cfg (s : State) (r : BitVec 3) : (s.hostRead r).cfg = s.cfg := rfl
@[simp] theorem State.hostRead_status (s : State) (r : BitVec 3) : (s.hostRead r).status = s.status := rfl
@[simp] theorem State.hostRead_addr (s : State) (r : BitVec 3) : (s.hostRead r).addr = s.addr := rfl
@[simp] theorem State.hostRead_len (s : State) (r : BitVec 3) : (s.hostRead r).len = s.len := rfl
@[simp] theorem State.hostRead_ckAcc (s : State) (r : BitVec 3) : (s.hostRead r).ckAcc = s.ckAcc := rfl
@[simp] theorem State.hostRead_op (s : State) (r : BitVec 3) : (s.hostRead r).op = s.op := rfl
@[simp] theorem State.hostRead_waiting (s : State) (r : BitVec 3) : (s.hostRead r).waiting = s.waiting := rfl
@[simp] theorem State.hostRead_frm (s : State) (r : BitVec 3) : (s.hostRead r).frm = s.frm := rfl
@[simp] theorem State.hostRead_prs (s : State) (r : BitVec 3) : (s.hostRead r).prs = s.prs := rfl
@[simp] theorem State.hostRead_col (s : State) (r : BitVec 3) : (s.hostRead r).col = s.col := rfl
@[simp] theorem State.hostRead_rdata (s : State) (r : BitVec 3) : (s.hostRead r).rdata = s.regValue r := rfl
@[simp] theorem State.hostRead_agenda (s : State) (r : BitVec 3) : (s.hostRead r).agenda = s.agenda := rfl

@[simp] theorem State.resetAsserted_cfg (s : State) : (s.resetAsserted).cfg = s.cfg := rfl
@[simp] theorem State.resetAsserted_status (s : State) : (s.resetAsserted).status = Status.reset := rfl
@[simp] theorem State.resetAsserted_addr (s : State) : (s.resetAsserted).addr = 0 := rfl
@[simp] theorem State.resetAsserted_len (s : State) : (s.resetAsserted).len = 0 := rfl
@[simp] theorem State.resetAsserted_ckAcc (s : State) : (s.resetAsserted).ckAcc = 0 := rfl
@[simp] theorem State.resetAsserted_op (s : State) : (s.resetAsserted).op = Op.none := rfl
@[simp] theorem State.resetAsserted_waiting (s : State) : (s.resetAsserted).waiting = none := rfl
@[simp] theorem State.resetAsserted_frm (s : State) : (s.resetAsserted).frm = Framer.reset := rfl
@[simp] theorem State.resetAsserted_prs (s : State) : (s.resetAsserted).prs = Parser.reset := rfl
@[simp] theorem State.resetAsserted_col (s : State) : (s.resetAsserted).col = s.col := rfl
@[simp] theorem State.resetAsserted_rdata (s : State) : (s.resetAsserted).rdata = s.rdata := rfl
@[simp] theorem State.resetAsserted_agenda (s : State) : (s.resetAsserted).agenda = s.agenda := rfl

@[simp] theorem State.nextPos_cfg (s : State) : (s.nextPos).cfg = s.cfg := rfl
@[simp] theorem State.nextPos_status (s : State) : (s.nextPos).status = s.status := rfl
@[simp] theorem State.nextPos_addr (s : State) : (s.nextPos).addr = s.addr := rfl
@[simp] theorem State.nextPos_len (s : State) : (s.nextPos).len = s.len := rfl
@[simp] theorem State.nextPos_ckAcc (s : State) : (s.nextPos).ckAcc = s.ckAcc := rfl
@[simp] theorem State.nextPos_op (s : State) : (s.nextPos).op = s.op := rfl
@[simp] theorem State.nextPos_waiting (s : State) : (s.nextPos).waiting = s.waiting := rfl
@[simp] theorem State.nextPos_frm (s : State) : (s.nextPos).frm = { s.frm with pos := s.frm.pos + 1 } := rfl
@[simp] theorem State.nextPos_prs (s : State) : (s.nextPos).prs = s.prs := rfl
@[simp] theorem State.nextPos_col (s : State) : (s.nextPos).col = s.col := rfl
@[simp] theorem State.nextPos_rdata (s : State) : (s.nextPos).rdata = s.rdata := rfl
@[simp] theorem State.nextPos_agenda (s : State) : (s.nextPos).agenda = s.agenda := rfl

@[simp] theorem State.openLine_cfg (s : State) : (s.openLine).cfg = s.cfg := rfl
@[simp] theorem State.openLine_status (s : State) : (s.openLine).status = s.status := rfl
@[simp] theorem State.openLine_addr (s : State) : (s.openLine).addr = s.addr := rfl
@[simp] theorem State.openLine_len (s : State) : (s.openLine).len = s.len := rfl
@[simp] theorem State.openLine_ckAcc (s : State) : (s.openLine).ckAcc = s.ckAcc := rfl
@[simp] theorem State.openLine_op (s : State) : (s.openLine).op = s.op := rfl
@[simp] theorem State.openLine_waiting (s : State) : (s.openLine).waiting = s.waiting := rfl
@[simp] theorem State.openLine_frm (s : State) :
    (s.openLine).frm = { s.frm with
      k := chunkLen s.frm.rem
      rem := s.frm.rem - (chunkLen s.frm.rem).zeroExtend 32
      acc := (chunkLen s.frm.rem).zeroExtend 8 + hiByte s.frm.addr + loByte s.frm.addr + 0x00 } := rfl
@[simp] theorem State.openLine_prs (s : State) : (s.openLine).prs = s.prs := rfl
@[simp] theorem State.openLine_col (s : State) : (s.openLine).col = s.col := rfl
@[simp] theorem State.openLine_rdata (s : State) : (s.openLine).rdata = s.rdata := rfl
@[simp] theorem State.openLine_agenda (s : State) : (s.openLine).agenda = s.agenda := rfl

@[simp] theorem State.tookByte_cfg (s : State) (v : Byte) : (s.tookByte v).cfg = s.cfg := rfl
@[simp] theorem State.tookByte_status (s : State) (v : Byte) : (s.tookByte v).status = s.status := rfl
@[simp] theorem State.tookByte_addr (s : State) (v : Byte) : (s.tookByte v).addr = s.addr := rfl
@[simp] theorem State.tookByte_len (s : State) (v : Byte) : (s.tookByte v).len = s.len := rfl
@[simp] theorem State.tookByte_ckAcc (s : State) (v : Byte) : (s.tookByte v).ckAcc = s.ckAcc := rfl
@[simp] theorem State.tookByte_op (s : State) (v : Byte) : (s.tookByte v).op = s.op := rfl
@[simp] theorem State.tookByte_waiting (s : State) (v : Byte) : (s.tookByte v).waiting = s.waiting := rfl
@[simp] theorem State.tookByte_frm (s : State) (v : Byte) : (s.tookByte v).frm = { s.frm with d := v, acc := s.frm.acc + v } := rfl
@[simp] theorem State.tookByte_prs (s : State) (v : Byte) : (s.tookByte v).prs = s.prs := rfl
@[simp] theorem State.tookByte_col (s : State) (v : Byte) : (s.tookByte v).col = s.col := rfl
@[simp] theorem State.tookByte_rdata (s : State) (v : Byte) : (s.tookByte v).rdata = s.rdata := rfl
@[simp] theorem State.tookByte_agenda (s : State) (v : Byte) : (s.tookByte v).agenda = s.agenda := rfl

@[simp] theorem State.beginPayload_cfg (s : State) (tt ll : Byte) (aaaa : Addr) : (s.beginPayload tt ll aaaa).cfg = s.cfg := rfl
@[simp] theorem State.beginPayload_status (s : State) (tt ll : Byte) (aaaa : Addr) : (s.beginPayload tt ll aaaa).status = s.status := rfl
@[simp] theorem State.beginPayload_addr (s : State) (tt ll : Byte) (aaaa : Addr) : (s.beginPayload tt ll aaaa).addr = s.addr := rfl
@[simp] theorem State.beginPayload_len (s : State) (tt ll : Byte) (aaaa : Addr) : (s.beginPayload tt ll aaaa).len = s.len := rfl
@[simp] theorem State.beginPayload_ckAcc (s : State) (tt ll : Byte) (aaaa : Addr) : (s.beginPayload tt ll aaaa).ckAcc = s.ckAcc := rfl
@[simp] theorem State.beginPayload_op (s : State) (tt ll : Byte) (aaaa : Addr) : (s.beginPayload tt ll aaaa).op = s.op := rfl
@[simp] theorem State.beginPayload_waiting (s : State) (tt ll : Byte) (aaaa : Addr) : (s.beginPayload tt ll aaaa).waiting = s.waiting := rfl
@[simp] theorem State.beginPayload_frm (s : State) (tt ll : Byte) (aaaa : Addr) : (s.beginPayload tt ll aaaa).frm = s.frm := rfl
@[simp] theorem State.beginPayload_prs (s : State) (tt ll : Byte) (aaaa : Addr) :
    (s.beginPayload tt ll aaaa).prs = { s.prs with type := tt, cnt := ll, addr := aaaa, ph := if ll = 0 then .cks else .data } := rfl
@[simp] theorem State.beginPayload_col (s : State) (tt ll : Byte) (aaaa : Addr) : (s.beginPayload tt ll aaaa).col = s.col := rfl
@[simp] theorem State.beginPayload_rdata (s : State) (tt ll : Byte) (aaaa : Addr) : (s.beginPayload tt ll aaaa).rdata = s.rdata := rfl
@[simp] theorem State.beginPayload_agenda (s : State) (tt ll : Byte) (aaaa : Addr) : (s.beginPayload tt ll aaaa).agenda = s.agenda := rfl

@[simp] theorem State.firstDigit_cfg (s : State) (v : Nib) : (s.firstDigit v).cfg = s.cfg := rfl
@[simp] theorem State.firstDigit_status (s : State) (v : Nib) : (s.firstDigit v).status = s.status := rfl
@[simp] theorem State.firstDigit_addr (s : State) (v : Nib) : (s.firstDigit v).addr = s.addr := rfl
@[simp] theorem State.firstDigit_len (s : State) (v : Nib) : (s.firstDigit v).len = s.len := rfl
@[simp] theorem State.firstDigit_ckAcc (s : State) (v : Nib) : (s.firstDigit v).ckAcc = s.ckAcc := rfl
@[simp] theorem State.firstDigit_op (s : State) (v : Nib) : (s.firstDigit v).op = s.op := rfl
@[simp] theorem State.firstDigit_waiting (s : State) (v : Nib) : (s.firstDigit v).waiting = s.waiting := rfl
@[simp] theorem State.firstDigit_frm (s : State) (v : Nib) : (s.firstDigit v).frm = s.frm := rfl
@[simp] theorem State.firstDigit_prs (s : State) (v : Nib) : (s.firstDigit v).prs = { s.prs with hi := v, nib := true } := rfl
@[simp] theorem State.firstDigit_col (s : State) (v : Nib) : (s.firstDigit v).col = s.col := rfl
@[simp] theorem State.firstDigit_rdata (s : State) (v : Nib) : (s.firstDigit v).rdata = s.rdata := rfl
@[simp] theorem State.firstDigit_agenda (s : State) (v : Nib) : (s.firstDigit v).agenda = s.agenda := rfl

@[simp] theorem State.tookPair_cfg (s : State) (b : Byte) : (s.tookPair b).cfg = s.cfg := rfl
@[simp] theorem State.tookPair_status (s : State) (b : Byte) : (s.tookPair b).status = s.status := rfl
@[simp] theorem State.tookPair_addr (s : State) (b : Byte) : (s.tookPair b).addr = s.addr := rfl
@[simp] theorem State.tookPair_len (s : State) (b : Byte) : (s.tookPair b).len = s.len := rfl
@[simp] theorem State.tookPair_ckAcc (s : State) (b : Byte) : (s.tookPair b).ckAcc = s.ckAcc := rfl
@[simp] theorem State.tookPair_op (s : State) (b : Byte) : (s.tookPair b).op = s.op := rfl
@[simp] theorem State.tookPair_waiting (s : State) (b : Byte) : (s.tookPair b).waiting = s.waiting := rfl
@[simp] theorem State.tookPair_frm (s : State) (b : Byte) : (s.tookPair b).frm = s.frm := rfl
@[simp] theorem State.tookPair_prs (s : State) (b : Byte) : (s.tookPair b).prs = { s.prs with acc := s.prs.acc + b, nib := false } := rfl
@[simp] theorem State.tookPair_col (s : State) (b : Byte) : (s.tookPair b).col = s.col := rfl
@[simp] theorem State.tookPair_rdata (s : State) (b : Byte) : (s.tookPair b).rdata = s.rdata := rfl
@[simp] theorem State.tookPair_agenda (s : State) (b : Byte) : (s.tookPair b).agenda = s.agenda := rfl

@[simp] theorem State.wroteByte_cfg (s : State) : (s.wroteByte).cfg = s.cfg := rfl
@[simp] theorem State.wroteByte_status (s : State) : (s.wroteByte).status = s.status := rfl
@[simp] theorem State.wroteByte_addr (s : State) : (s.wroteByte).addr = s.addr := rfl
@[simp] theorem State.wroteByte_len (s : State) : (s.wroteByte).len = s.len := rfl
@[simp] theorem State.wroteByte_ckAcc (s : State) : (s.wroteByte).ckAcc = s.ckAcc := rfl
@[simp] theorem State.wroteByte_op (s : State) : (s.wroteByte).op = s.op := rfl
@[simp] theorem State.wroteByte_waiting (s : State) : (s.wroteByte).waiting = s.waiting := rfl
@[simp] theorem State.wroteByte_frm (s : State) : (s.wroteByte).frm = s.frm := rfl
@[simp] theorem State.wroteByte_prs (s : State) :
    (s.wroteByte).prs = { s.prs with
      addr := s.prs.addr + 1
      cnt := s.prs.cnt - 1
      ph := if s.prs.cnt = 1 then .cks else .data } := rfl
@[simp] theorem State.wroteByte_col (s : State) : (s.wroteByte).col = s.col := rfl
@[simp] theorem State.wroteByte_rdata (s : State) : (s.wroteByte).rdata = s.rdata := rfl
@[simp] theorem State.wroteByte_agenda (s : State) : (s.wroteByte).agenda = s.agenda := rfl

@[simp] theorem State.awaiting_cfg (s : State) (c : Collab) (p : Port) : (s.awaiting c p).cfg = s.cfg := rfl
@[simp] theorem State.awaiting_status (s : State) (c : Collab) (p : Port) : (s.awaiting c p).status = s.status := rfl
@[simp] theorem State.awaiting_addr (s : State) (c : Collab) (p : Port) : (s.awaiting c p).addr = s.addr := rfl
@[simp] theorem State.awaiting_len (s : State) (c : Collab) (p : Port) : (s.awaiting c p).len = s.len := rfl
@[simp] theorem State.awaiting_ckAcc (s : State) (c : Collab) (p : Port) : (s.awaiting c p).ckAcc = s.ckAcc := rfl
@[simp] theorem State.awaiting_op (s : State) (c : Collab) (p : Port) : (s.awaiting c p).op = s.op := rfl
@[simp] theorem State.awaiting_waiting (s : State) (c : Collab) (p : Port) : (s.awaiting c p).waiting = some p := rfl
@[simp] theorem State.awaiting_frm (s : State) (c : Collab) (p : Port) : (s.awaiting c p).frm = s.frm := rfl
@[simp] theorem State.awaiting_prs (s : State) (c : Collab) (p : Port) : (s.awaiting c p).prs = s.prs := rfl
@[simp] theorem State.awaiting_col (s : State) (c : Collab) (p : Port) : (s.awaiting c p).col = c := rfl
@[simp] theorem State.awaiting_rdata (s : State) (c : Collab) (p : Port) : (s.awaiting c p).rdata = s.rdata := rfl
@[simp] theorem State.awaiting_agenda (s : State) (c : Collab) (p : Port) : (s.awaiting c p).agenda = s.agenda := rfl

/-! ## STATUS -/

@[simp] theorem Status.completed_busy (st : Status) (ok eof : Bool) (err : FailKind) : (st.completed ok eof err).busy = false := rfl
@[simp] theorem Status.completed_done (st : Status) (ok eof : Bool) (err : FailKind) : (st.completed ok eof err).done = true := rfl
@[simp] theorem Status.completed_ok (st : Status) (ok eof : Bool) (err : FailKind) : (st.completed ok eof err).ok = ok := rfl
@[simp] theorem Status.completed_eof (st : Status) (ok eof : Bool) (err : FailKind) : (st.completed ok eof err).eof = eof := rfl
@[simp] theorem Status.completed_err (st : Status) (ok eof : Bool) (err : FailKind) : (st.completed ok eof err).err = err := rfl
@[simp] theorem Status.completed_drop (st : Status) (ok eof : Bool) (err : FailKind) : (st.completed ok eof err).drop = st.drop := rfl

/-! ## The collaborators -/

@[simp] theorem Collab.emitted_mem (c : Collab) (ch : Byte) (ds : List Draw) : (c.emitted ch ds).mem = c.mem := rfl
@[simp] theorem Collab.emitted_memDraws (c : Collab) (ch : Byte) (ds : List Draw) : (c.emitted ch ds).memDraws = c.memDraws := rfl
@[simp] theorem Collab.emitted_memUp (c : Collab) (ch : Byte) (ds : List Draw) : (c.emitted ch ds).memUp = c.memUp := rfl
@[simp] theorem Collab.emitted_inUp (c : Collab) (ch : Byte) (ds : List Draw) : (c.emitted ch ds).inUp = c.inUp := rfl
@[simp] theorem Collab.emitted_outUp (c : Collab) (ch : Byte) (ds : List Draw) : (c.emitted ch ds).outUp = c.outUp := rfl
@[simp] theorem Collab.emitted_inText (c : Collab) (ch : Byte) (ds : List Draw) : (c.emitted ch ds).inText = c.inText := rfl
@[simp] theorem Collab.emitted_inLoop (c : Collab) (ch : Byte) (ds : List Draw) : (c.emitted ch ds).inLoop = c.inLoop := rfl
@[simp] theorem Collab.emitted_inPos (c : Collab) (ch : Byte) (ds : List Draw) : (c.emitted ch ds).inPos = c.inPos := rfl
@[simp] theorem Collab.emitted_inDraws (c : Collab) (ch : Byte) (ds : List Draw) : (c.emitted ch ds).inDraws = c.inDraws := rfl
@[simp] theorem Collab.emitted_outText (c : Collab) (ch : Byte) (ds : List Draw) : (c.emitted ch ds).outText = c.outText ++ [ch] := rfl
@[simp] theorem Collab.emitted_outDraws (c : Collab) (ch : Byte) (ds : List Draw) : (c.emitted ch ds).outDraws = ds := rfl
@[simp] theorem Collab.emitted_trace (c : Collab) (ch : Byte) (ds : List Draw) : (c.emitted ch ds).trace = c.trace ++ [.emit ch .ok] := rfl

@[simp] theorem Collab.emitFaulted_mem (c : Collab) (ch : Byte) (ds : List Draw) : (c.emitFaulted ch ds).mem = c.mem := rfl
@[simp] theorem Collab.emitFaulted_memDraws (c : Collab) (ch : Byte) (ds : List Draw) : (c.emitFaulted ch ds).memDraws = c.memDraws := rfl
@[simp] theorem Collab.emitFaulted_memUp (c : Collab) (ch : Byte) (ds : List Draw) : (c.emitFaulted ch ds).memUp = c.memUp := rfl
@[simp] theorem Collab.emitFaulted_inUp (c : Collab) (ch : Byte) (ds : List Draw) : (c.emitFaulted ch ds).inUp = c.inUp := rfl
@[simp] theorem Collab.emitFaulted_outUp (c : Collab) (ch : Byte) (ds : List Draw) : (c.emitFaulted ch ds).outUp = c.outUp := rfl
@[simp] theorem Collab.emitFaulted_inText (c : Collab) (ch : Byte) (ds : List Draw) : (c.emitFaulted ch ds).inText = c.inText := rfl
@[simp] theorem Collab.emitFaulted_inLoop (c : Collab) (ch : Byte) (ds : List Draw) : (c.emitFaulted ch ds).inLoop = c.inLoop := rfl
@[simp] theorem Collab.emitFaulted_inPos (c : Collab) (ch : Byte) (ds : List Draw) : (c.emitFaulted ch ds).inPos = c.inPos := rfl
@[simp] theorem Collab.emitFaulted_inDraws (c : Collab) (ch : Byte) (ds : List Draw) : (c.emitFaulted ch ds).inDraws = c.inDraws := rfl
@[simp] theorem Collab.emitFaulted_outText (c : Collab) (ch : Byte) (ds : List Draw) : (c.emitFaulted ch ds).outText = c.outText := rfl
@[simp] theorem Collab.emitFaulted_outDraws (c : Collab) (ch : Byte) (ds : List Draw) : (c.emitFaulted ch ds).outDraws = ds := rfl
@[simp] theorem Collab.emitFaulted_trace (c : Collab) (ch : Byte) (ds : List Draw) : (c.emitFaulted ch ds).trace = c.trace ++ [.emit ch .fault] := rfl

@[simp] theorem Collab.took_mem (c : Collab) (ch : Byte) (rest : List Byte) (ds : List Draw) : (c.took ch rest ds).mem = c.mem := rfl
@[simp] theorem Collab.took_memDraws (c : Collab) (ch : Byte) (rest : List Byte) (ds : List Draw) : (c.took ch rest ds).memDraws = c.memDraws := rfl
@[simp] theorem Collab.took_memUp (c : Collab) (ch : Byte) (rest : List Byte) (ds : List Draw) : (c.took ch rest ds).memUp = c.memUp := rfl
@[simp] theorem Collab.took_inUp (c : Collab) (ch : Byte) (rest : List Byte) (ds : List Draw) : (c.took ch rest ds).inUp = c.inUp := rfl
@[simp] theorem Collab.took_outUp (c : Collab) (ch : Byte) (rest : List Byte) (ds : List Draw) : (c.took ch rest ds).outUp = c.outUp := rfl
@[simp] theorem Collab.took_inText (c : Collab) (ch : Byte) (rest : List Byte) (ds : List Draw) : (c.took ch rest ds).inText = rest := rfl
@[simp] theorem Collab.took_inLoop (c : Collab) (ch : Byte) (rest : List Byte) (ds : List Draw) : (c.took ch rest ds).inLoop = c.inLoop := rfl
@[simp] theorem Collab.took_inPos (c : Collab) (ch : Byte) (rest : List Byte) (ds : List Draw) : (c.took ch rest ds).inPos = c.inPos + 1 := rfl
@[simp] theorem Collab.took_inDraws (c : Collab) (ch : Byte) (rest : List Byte) (ds : List Draw) : (c.took ch rest ds).inDraws = ds := rfl
@[simp] theorem Collab.took_outText (c : Collab) (ch : Byte) (rest : List Byte) (ds : List Draw) : (c.took ch rest ds).outText = c.outText := rfl
@[simp] theorem Collab.took_outDraws (c : Collab) (ch : Byte) (rest : List Byte) (ds : List Draw) : (c.took ch rest ds).outDraws = c.outDraws := rfl
@[simp] theorem Collab.took_trace (c : Collab) (ch : Byte) (rest : List Byte) (ds : List Draw) : (c.took ch rest ds).trace = c.trace ++ [.consume (.chr ch)] := rfl

@[simp] theorem Collab.tookNone_mem (c : Collab) (r : InAnswer) (ds : List Draw) : (c.tookNone r ds).mem = c.mem := rfl
@[simp] theorem Collab.tookNone_memDraws (c : Collab) (r : InAnswer) (ds : List Draw) : (c.tookNone r ds).memDraws = c.memDraws := rfl
@[simp] theorem Collab.tookNone_memUp (c : Collab) (r : InAnswer) (ds : List Draw) : (c.tookNone r ds).memUp = c.memUp := rfl
@[simp] theorem Collab.tookNone_inUp (c : Collab) (r : InAnswer) (ds : List Draw) : (c.tookNone r ds).inUp = c.inUp := rfl
@[simp] theorem Collab.tookNone_outUp (c : Collab) (r : InAnswer) (ds : List Draw) : (c.tookNone r ds).outUp = c.outUp := rfl
@[simp] theorem Collab.tookNone_inText (c : Collab) (r : InAnswer) (ds : List Draw) : (c.tookNone r ds).inText = c.inText := rfl
@[simp] theorem Collab.tookNone_inLoop (c : Collab) (r : InAnswer) (ds : List Draw) : (c.tookNone r ds).inLoop = c.inLoop := rfl
@[simp] theorem Collab.tookNone_inPos (c : Collab) (r : InAnswer) (ds : List Draw) : (c.tookNone r ds).inPos = c.inPos := rfl
@[simp] theorem Collab.tookNone_inDraws (c : Collab) (r : InAnswer) (ds : List Draw) : (c.tookNone r ds).inDraws = ds := rfl
@[simp] theorem Collab.tookNone_outText (c : Collab) (r : InAnswer) (ds : List Draw) : (c.tookNone r ds).outText = c.outText := rfl
@[simp] theorem Collab.tookNone_outDraws (c : Collab) (r : InAnswer) (ds : List Draw) : (c.tookNone r ds).outDraws = c.outDraws := rfl
@[simp] theorem Collab.tookNone_trace (c : Collab) (r : InAnswer) (ds : List Draw) : (c.tookNone r ds).trace = c.trace ++ [.consume r] := rfl

@[simp] theorem Collab.wasRead_mem (c : Collab) (a : Addr) (ds : List MemDraw) : (c.wasRead a ds).mem = c.mem := rfl
@[simp] theorem Collab.wasRead_memDraws (c : Collab) (a : Addr) (ds : List MemDraw) : (c.wasRead a ds).memDraws = ds := rfl
@[simp] theorem Collab.wasRead_memUp (c : Collab) (a : Addr) (ds : List MemDraw) : (c.wasRead a ds).memUp = c.memUp := rfl
@[simp] theorem Collab.wasRead_inUp (c : Collab) (a : Addr) (ds : List MemDraw) : (c.wasRead a ds).inUp = c.inUp := rfl
@[simp] theorem Collab.wasRead_outUp (c : Collab) (a : Addr) (ds : List MemDraw) : (c.wasRead a ds).outUp = c.outUp := rfl
@[simp] theorem Collab.wasRead_inText (c : Collab) (a : Addr) (ds : List MemDraw) : (c.wasRead a ds).inText = c.inText := rfl
@[simp] theorem Collab.wasRead_inLoop (c : Collab) (a : Addr) (ds : List MemDraw) : (c.wasRead a ds).inLoop = c.inLoop := rfl
@[simp] theorem Collab.wasRead_inPos (c : Collab) (a : Addr) (ds : List MemDraw) : (c.wasRead a ds).inPos = c.inPos := rfl
@[simp] theorem Collab.wasRead_inDraws (c : Collab) (a : Addr) (ds : List MemDraw) : (c.wasRead a ds).inDraws = c.inDraws := rfl
@[simp] theorem Collab.wasRead_outText (c : Collab) (a : Addr) (ds : List MemDraw) : (c.wasRead a ds).outText = c.outText := rfl
@[simp] theorem Collab.wasRead_outDraws (c : Collab) (a : Addr) (ds : List MemDraw) : (c.wasRead a ds).outDraws = c.outDraws := rfl
@[simp] theorem Collab.wasRead_trace (c : Collab) (a : Addr) (ds : List MemDraw) : (c.wasRead a ds).trace = c.trace ++ [.memRead a (c.mem.read a)] := rfl

@[simp] theorem Collab.wasWritten_mem (c : Collab) (a : Addr) (v : Byte) (ds : List MemDraw) : (c.wasWritten a v ds).mem = c.mem.write a v := rfl
@[simp] theorem Collab.wasWritten_memDraws (c : Collab) (a : Addr) (v : Byte) (ds : List MemDraw) : (c.wasWritten a v ds).memDraws = ds := rfl
@[simp] theorem Collab.wasWritten_memUp (c : Collab) (a : Addr) (v : Byte) (ds : List MemDraw) : (c.wasWritten a v ds).memUp = c.memUp := rfl
@[simp] theorem Collab.wasWritten_inUp (c : Collab) (a : Addr) (v : Byte) (ds : List MemDraw) : (c.wasWritten a v ds).inUp = c.inUp := rfl
@[simp] theorem Collab.wasWritten_outUp (c : Collab) (a : Addr) (v : Byte) (ds : List MemDraw) : (c.wasWritten a v ds).outUp = c.outUp := rfl
@[simp] theorem Collab.wasWritten_inText (c : Collab) (a : Addr) (v : Byte) (ds : List MemDraw) : (c.wasWritten a v ds).inText = c.inText := rfl
@[simp] theorem Collab.wasWritten_inLoop (c : Collab) (a : Addr) (v : Byte) (ds : List MemDraw) : (c.wasWritten a v ds).inLoop = c.inLoop := rfl
@[simp] theorem Collab.wasWritten_inPos (c : Collab) (a : Addr) (v : Byte) (ds : List MemDraw) : (c.wasWritten a v ds).inPos = c.inPos := rfl
@[simp] theorem Collab.wasWritten_inDraws (c : Collab) (a : Addr) (v : Byte) (ds : List MemDraw) : (c.wasWritten a v ds).inDraws = c.inDraws := rfl
@[simp] theorem Collab.wasWritten_outText (c : Collab) (a : Addr) (v : Byte) (ds : List MemDraw) : (c.wasWritten a v ds).outText = c.outText := rfl
@[simp] theorem Collab.wasWritten_outDraws (c : Collab) (a : Addr) (v : Byte) (ds : List MemDraw) : (c.wasWritten a v ds).outDraws = c.outDraws := rfl
@[simp] theorem Collab.wasWritten_trace (c : Collab) (a : Addr) (v : Byte) (ds : List MemDraw) : (c.wasWritten a v ds).trace = c.trace ++ [.memWrite a v] := rfl

/-! ## Plain register writes -/

@[simp] theorem State.plainWrite_addr (s : State) (w : Word) : s.plainWrite regAddr w = { s with addr := addrField w } := rfl
@[simp] theorem State.plainWrite_len (s : State) (w : Word) : s.plainWrite regLen w = { s with len := lenField s.cfg w } := rfl

/-- Everything a plain register write can change (43_control.md R195). -/
theorem State.plainWrite_eq (s : State) (r : BitVec 3) (w : Word) :
    s.plainWrite r w =
      { s with addr := if r = regAddr then addrField w else s.addr
               len := if r = regLen then lenField s.cfg w else s.len } := by
  unfold State.plainWrite
  split
  · next h => subst h; rfl
  · split <;> rfl

end Sys2Proof.Machine
end

