-- ==== Sys2Proof/Laws/Ops.lean ====
section
/-! SUPPORT. What the shared operations can do, once each: the port transactions (10_state.md R34 to R37), EmitOrFail and
ConsumeOrFail (41_framer.md R126, 42_parser.md R150), and acceptance (43_control.md R190, R191). -/

namespace Sys2Proof.Machine

/-- The draws left when a call is served. -/
def servedDraws (before after : List Draw) : Prop := (before = [] ∧ after = []) ∨ before = .ok :: after

/-- Everything `Emit` can answer (10_state.md R36). -/
theorem Collab.emit_cases (c : Collab) (ch : Byte) :
    (c.outUp = false ∧ c.emit ch = .unconnected .out) ∨
    (c.outUp = true ∧ ∃ ds, servedDraws c.outDraws ds ∧ c.emit ch = .answer .ok (c.emitted ch ds)) ∨
    (c.outUp = true ∧ ∃ ds, c.outDraws = .fault :: ds ∧ c.emit ch = .answer .fault (c.emitFaulted ch ds)) ∨
    (c.outUp = true ∧ ∃ ds, c.outDraws = .silent :: ds ∧ c.emit ch = .silent) := by
  unfold Collab.emit servedDraws
  cases hu : c.outUp
  · simp
  · rcases hd : c.outDraws with _ | ⟨d, ds⟩
    · exact .inr (.inl ⟨rfl, [], .inl ⟨rfl, rfl⟩, by simp⟩)
    · cases d
      · exact .inr (.inl ⟨rfl, ds, .inr rfl, by simp⟩)
      · exact .inr (.inr (.inl ⟨rfl, ds, rfl, by simp⟩))
      · exact .inr (.inr (.inr ⟨rfl, ds, rfl, by simp⟩))

/-- Everything `Consume` can answer (10_state.md R37). -/
theorem Collab.consume_cases (c : Collab) :
    (c.inUp = false ∧ c.consume = .unconnected .inp) ∨
    (c.inUp = true ∧ ∃ ds ch rest, servedDraws c.inDraws ds ∧ c.upcoming = ch :: rest ∧
      c.consume = .answer (.chr ch) (c.took ch rest ds)) ∨
    (c.inUp = true ∧ ∃ ds, servedDraws c.inDraws ds ∧ c.upcoming = [] ∧ c.consume = .answer .eoi (c.tookNone .eoi ds)) ∨
    (c.inUp = true ∧ ∃ ds, c.inDraws = .fault :: ds ∧ c.consume = .answer .fault (c.tookNone .fault ds)) ∨
    (c.inUp = true ∧ ∃ ds, c.inDraws = .silent :: ds ∧ c.consume = .silent) := by
  unfold Collab.consume Collab.served servedDraws
  cases hu : c.inUp
  · simp
  · rcases hd : c.inDraws with _ | ⟨d, ds⟩
    · rcases ht : c.upcoming with _ | ⟨ch, rest⟩
      · exact .inr (.inr (.inl ⟨rfl, [], .inl ⟨rfl, rfl⟩, rfl, by simp⟩))
      · exact .inr (.inl ⟨rfl, [], ch, rest, .inl ⟨rfl, rfl⟩, rfl, by simp⟩)
    · cases d
      · rcases ht : c.upcoming with _ | ⟨ch, rest⟩
        · exact .inr (.inr (.inl ⟨rfl, ds, .inr rfl, rfl, by simp⟩))
        · exact .inr (.inl ⟨rfl, ds, ch, rest, .inr rfl, rfl, by simp⟩)
      · exact .inr (.inr (.inr (.inl ⟨rfl, ds, rfl, by simp⟩)))
      · exact .inr (.inr (.inr (.inr ⟨rfl, ds, rfl, by simp⟩)))

/-- With a listed character left, the listed ones come next. -/
@[simp] theorem Collab.upcoming_cons {c : Collab} {ch : Byte} {rest : List Byte} (h : c.inText = ch :: rest) :
    c.upcoming = ch :: rest := by simp [Collab.upcoming, h]

/-- With none left, an endless stream's next turn does. -/
@[simp] theorem Collab.upcoming_nil {c : Collab} (h : c.inText = []) : c.upcoming = c.inLoop := by
  simp [Collab.upcoming, h]

/-- The draws left when MEM answers. -/
def servedMemDraws (before after : List MemDraw) : Prop := (before = [] ∧ after = []) ∨ before = .ok :: after

/-- Everything `MemRead` can answer (10_state.md R34; assumption log 22). -/
theorem Collab.memRead_cases (c : Collab) (a : Addr) :
    (c.memUp = false ∧ c.memRead a = .unconnected .mem) ∨
    (c.memUp = true ∧ ∃ ds, servedMemDraws c.memDraws ds ∧ c.memRead a = .answer (c.mem.read a) (c.wasRead a ds)) ∨
    (c.memUp = true ∧ ∃ ds, c.memDraws = .silent :: ds ∧ c.memRead a = .silent) := by
  unfold Collab.memRead servedMemDraws
  cases hu : c.memUp
  · simp
  · rcases hd : c.memDraws with _ | ⟨d, ds⟩
    · exact .inr (.inl ⟨rfl, [], .inl ⟨rfl, rfl⟩, by simp⟩)
    · cases d
      · exact .inr (.inl ⟨rfl, ds, .inr rfl, by simp⟩)
      · exact .inr (.inr ⟨rfl, ds, rfl, by simp⟩)

/-- Everything `MemWrite` can answer (10_state.md R35; assumption log 22). -/
theorem Collab.memWrite_cases (c : Collab) (a : Addr) (v : Byte) :
    (c.memUp = false ∧ c.memWrite a v = .unconnected .mem) ∨
    (c.memUp = true ∧ ∃ ds, servedMemDraws c.memDraws ds ∧ c.memWrite a v = .answer () (c.wasWritten a v ds)) ∨
    (c.memUp = true ∧ ∃ ds, c.memDraws = .silent :: ds ∧ c.memWrite a v = .silent) := by
  unfold Collab.memWrite servedMemDraws
  cases hu : c.memUp
  · simp
  · rcases hd : c.memDraws with _ | ⟨d, ds⟩
    · exact .inr (.inl ⟨rfl, [], .inl ⟨rfl, rfl⟩, by simp⟩)
    · cases d
      · exact .inr (.inl ⟨rfl, ds, .inr rfl, by simp⟩)
      · exact .inr (.inr ⟨rfl, ds, rfl, by simp⟩)

/-- Everything `EmitOrFail` can do (41_framer.md R126). -/
theorem emitOrFail_cases (s t : State) (ch : Byte) (k : State → State) :
    (t.col.outUp = false ∧ emitOrFail s t ch k = .refused (.portUnconnected .out)) ∨
    (t.col.outUp = true ∧ ∃ ds, servedDraws t.col.outDraws ds ∧
      emitOrFail s t ch k = .next (k (t.withCol (t.col.emitted ch ds)))) ∨
    (t.col.outUp = true ∧ ∃ ds, t.col.outDraws = .fault :: ds ∧
      emitOrFail s t ch k = .next ((t.withCol (t.col.emitFaulted ch ds)).fail .emitFault)) ∨
    (t.col.outUp = true ∧ ∃ ds, t.col.outDraws = .silent :: ds ∧ emitOrFail s t ch k = .next (s.awaiting t.col .out)) := by
  unfold emitOrFail
  rcases t.col.emit_cases ch with ⟨hu, h⟩ | ⟨hu, ds, hd, h⟩ | ⟨hu, ds, hd, h⟩ | ⟨hu, ds, hd, h⟩ <;> rw [h]
  · exact .inl ⟨hu, rfl⟩
  · exact .inr (.inl ⟨hu, ds, hd, rfl⟩)
  · exact .inr (.inr (.inl ⟨hu, ds, hd, rfl⟩))
  · exact .inr (.inr (.inr ⟨hu, ds, hd, rfl⟩))

/-- Everything `ConsumeOrFail` can do (42_parser.md R150). -/
theorem consumeOrFail_cases (s : State) (k : Byte → State → Host.Outcome State Fault Refusal) :
    (s.col.inUp = false ∧ consumeOrFail s k = .refused (.portUnconnected .inp)) ∨
    (s.col.inUp = true ∧ ∃ ds ch rest, servedDraws s.col.inDraws ds ∧ s.col.upcoming = ch :: rest ∧
      consumeOrFail s k = k ch (s.withCol (s.col.took ch rest ds))) ∨
    (s.col.inUp = true ∧ ∃ ds, servedDraws s.col.inDraws ds ∧ s.col.upcoming = [] ∧
      consumeOrFail s k = .next ((s.withCol (s.col.tookNone .eoi ds)).fail .endOfInput)) ∨
    (s.col.inUp = true ∧ ∃ ds, s.col.inDraws = .fault :: ds ∧
      consumeOrFail s k = .next ((s.withCol (s.col.tookNone .fault ds)).fail .inputFault)) ∨
    (s.col.inUp = true ∧ ∃ ds, s.col.inDraws = .silent :: ds ∧ consumeOrFail s k = .next (s.awaiting s.col .inp)) := by
  unfold consumeOrFail
  rcases s.col.consume_cases with ⟨hu, h⟩ | ⟨hu, ds, ch, rest, hd, ht, h⟩ | ⟨hu, ds, hd, ht, h⟩ | ⟨hu, ds, hd, h⟩ |
    ⟨hu, ds, hd, h⟩ <;> rw [h]
  · exact .inl ⟨hu, rfl⟩
  · exact .inr (.inl ⟨hu, ds, ch, rest, hd, ht, rfl⟩)
  · exact .inr (.inr (.inl ⟨hu, ds, hd, ht, rfl⟩))
  · exact .inr (.inr (.inr (.inl ⟨hu, ds, hd, rfl⟩)))
  · exact .inr (.inr (.inr (.inr ⟨hu, ds, hd, rfl⟩)))

/-- A command on an idle machine has its own effect (43_control.md R190). -/
theorem acceptOrDrop_idle {s : State} (h : s.status.busy = false) (effect : State → State) :
    acceptOrDrop s effect = .next (effect s.accepted) := by simp [acceptOrDrop, h]

/-- A command while BUSY = 1 only sets DROP (43_control.md R191). -/
theorem acceptOrDrop_busy {s : State} (h : s.status.busy = true) (effect : State → State) :
    acceptOrDrop s effect = .next s.dropped := by simp [acceptOrDrop, h]

end Sys2Proof.Machine
end

