-- ==== Sys2Proof/Laws/PerInstr.lean ====
section
/-! SUPPORT. Statements about every instruction as syntax, one lemma per constructor of Instr (30_encoding.md R76, R82). -/

namespace Sys2Proof.Laws.EncodedInRow

/-- The instruction is well formed and its word selects its own row of spec/opcode_table.json. -/
def Statement (i : Instr) : Prop := i.wf = true ∧ i.row.hits (encode i) = true

theorem nop : Statement .nop := by constructor <;> rfl

theorem ckClr : Statement .ckClr := by constructor <;> rfl

theorem ckAdd (byte : Byte) : Statement (.ckAdd byte) := by
  refine ⟨rfl, ?_⟩
  revert byte
  decide

theorem frmData : Statement .frmData := by constructor <;> rfl

theorem frmEnd : Statement .frmEnd := by constructor <;> rfl

theorem frmAll : Statement .frmAll := by constructor <;> rfl

theorem prsLine : Statement .prsLine := by constructor <;> rfl

theorem prsRead : Statement .prsRead := by constructor <;> rfl

theorem recData (ll : Byte) (aaaa : Addr) : Statement (.recData ll aaaa) := by
  simp [Statement, Instr.wf, Instr.row, encode, rowRecData_hits]

theorem recEof (ll : Byte) (aaaa : Addr) : Statement (.recEof ll aaaa) := by
  simp [Statement, Instr.wf, Instr.row, encode, rowRecEof_hits]

end Sys2Proof.Laws.EncodedInRow
end

