-- ==== Sys2Proof/Laws/Stream.lean ====
section
/-! SUPPORT. The input stream: what a Consume does to the characters ahead (10_state.md R37, R39; assumption log 23). -/

namespace Sys2Proof.Machine

/-- A source with nothing to give has nothing ahead. -/
theorem Collab.ahead_of_upcoming_nil {c : Collab} (h : c.upcoming = []) (n : Nat) : c.ahead n = none := by
  unfold Collab.upcoming at h
  split at h <;> simp_all [Collab.ahead]

/-- The next character of the stream is the one a Consume gives. -/
theorem Collab.ahead_zero {c : Collab} {ch : Byte} {rest : List Byte} (h : c.upcoming = ch :: rest) :
    c.ahead 0 = some ch := by
  unfold Collab.upcoming at h
  split at h <;> simp_all [Collab.ahead]

/-- A Consume moves the whole stream one place ahead. -/
theorem Collab.ahead_took {c : Collab} {ch : Byte} {rest : List Byte} (h : c.upcoming = ch :: rest) (ds : List Draw)
    (n : Nat) : (c.took ch rest ds).ahead n = c.ahead (n + 1) := by
  unfold Collab.upcoming at h
  split at h
  · next ht =>
    simp only [Collab.ahead, Collab.took_inText, Collab.took_inLoop, ht, h, List.length_nil, List.length_cons]
    by_cases hn : n < rest.length
    · rw [if_pos hn, if_neg (by omega), Nat.sub_zero, Nat.mod_eq_of_lt (by omega)]
      simp
    · rw [if_neg hn, if_neg (by omega), Nat.sub_zero]
      congr 1
      conv_rhs => rw [show n + 1 = n - rest.length + (rest.length + 1) by omega, Nat.add_mod_right]
  · by_cases hn : n < rest.length <;> simp [Collab.ahead, h, hn]

end Sys2Proof.Machine
end

