-- ==== Sys2Proof/Laws/Units.lean ====
section
/-! SUPPORT. What one step of the framer, of the parser and of the machine can do, each said once (41_framer.md R125,
42_parser.md R165, 43_control.md R190 to R196). -/

namespace Sys2Proof.Machine

/-! ## The framer -/

/-- The state in which the Emit of a data byte's first digit happens: the byte has been read (41_framer.md R125). -/
def State.readByte (s : State) (a : Addr) (ds : List MemDraw) : State :=
  (s.withCol (s.col.wasRead a ds)).tookByte (s.col.mem.read a)

/-- Everything one framer step can be (41_framer.md R125). -/
theorem framerStep_cases (s : State) :
    (framerStep s = .fault .incoherentControl ∧
      (s.frm.ph = .idle ∨ (s.frm.ph = .line ∧ s.frm.mode = .fin) ∨ (s.frm.ph = .eoflit ∧ 10 < s.frm.pos.toNat) ∨
        (s.frm.ph = .line ∧ s.frm.pos ≠ 0 ∧ 11 + 2 * s.frm.k.toNat < s.frm.pos.toNat))) ∨
    (s.frm.ph = .line ∧ s.frm.mode = .data ∧ s.frm.pos = 0 ∧ s.frm.rem = 0 ∧
      framerStep s = .next (s.complete true false .none)) ∨
    (s.frm.ph = .line ∧ s.frm.mode = .all ∧ s.frm.pos = 0 ∧ s.frm.rem = 0 ∧
      framerStep s = emitOrFail s (s.frameLiteral .all) chColon State.nextLiteral) ∨
    (s.frm.ph = .line ∧ s.frm.mode ≠ .fin ∧ s.frm.pos = 0 ∧ s.frm.rem ≠ 0 ∧
      framerStep s = emitOrFail s s.openLine chColon State.nextPos) ∨
    (s.frm.ph = .line ∧ s.frm.mode ≠ .fin ∧ s.frm.pos ≠ 0 ∧ atDataByte s.frm = false ∧
      s.frm.pos.toNat < 11 + 2 * s.frm.k.toNat ∧ framerStep s = emitOrFail s s (lineChar s.frm) State.nextPos) ∨
    (s.frm.ph = .line ∧ s.frm.mode ≠ .fin ∧ s.frm.pos ≠ 0 ∧ atDataByte s.frm = true ∧
      s.frm.pos.toNat < 9 + 2 * s.frm.k.toNat ∧
      ((s.col.memUp = false ∧ framerStep s = .refused (.portUnconnected .mem)) ∨
        (s.col.memUp = true ∧ ∃ ds, s.col.memDraws = .silent :: ds ∧ framerStep s = .next (s.awaiting s.col .mem)) ∨
        (s.col.memUp = true ∧ ∃ ds, servedMemDraws s.col.memDraws ds ∧
          framerStep s = emitOrFail s (s.readByte (dataByteAddr s.frm) ds)
            (digit (hiNib (s.col.mem.read (dataByteAddr s.frm)))) State.nextPos))) ∨
    (s.frm.ph = .line ∧ s.frm.mode ≠ .fin ∧ s.frm.pos ≠ 0 ∧ s.frm.pos.toNat = 11 + 2 * s.frm.k.toNat ∧
      framerStep s = emitOrFail s s s.cfg.newline State.closeLine) ∨
    (s.frm.ph = .eoflit ∧ s.frm.pos.toNat ≤ 10 ∧
      ∃ ch, eofLiteral[s.frm.pos.toNat]? = some ch ∧ framerStep s = emitOrFail s s ch State.nextLiteral) := by
  cases hp : s.frm.ph
  · left
    simp [framerStep, hp]
  · by_cases hm : s.frm.mode = .fin
    · left
      simp [framerStep, lineStep, hp, hm]
    by_cases h0 : s.frm.pos = 0
    · by_cases hr : s.frm.rem = 0
      · cases hmd : s.frm.mode
        · right; left
          simp [framerStep, lineStep, hp, hmd, h0, hr]
        · exact absurd hmd hm
        · right; right; left
          refine ⟨rfl, rfl, h0, hr, ?_⟩
          simp [framerStep, lineStep, hp, hmd, h0, hr, literalStep, eofLiteral, chColon]
      · right; right; right; left
        exact ⟨rfl, hm, h0, hr, by simp only [framerStep, lineStep, hp, if_neg hm, if_pos h0, if_neg hr]⟩
    · have hstep : framerStep s = insideLine s := by simp only [framerStep, lineStep, hp, if_neg hm, if_neg h0]
      rw [hstep]
      clear hstep
      cases hd : atDataByte s.frm
      · by_cases h1 : s.frm.pos.toNat < 11 + 2 * s.frm.k.toNat
        · right; right; right; right; left
          exact ⟨rfl, hm, h0, rfl, h1, by simp [insideLine, hd, h1]⟩
        · by_cases h2 : s.frm.pos.toNat = 11 + 2 * s.frm.k.toNat
          · right; right; right; right; right; right; left
            exact ⟨rfl, hm, h0, h2, by simp [insideLine, hd, h2]⟩
          · left
            exact ⟨by simp [insideLine, hd, h1, h2], .inr (.inr (.inr ⟨rfl, h0, by omega⟩))⟩
      · right; right; right; right; right; left
        have hlt : s.frm.pos.toNat < 9 + 2 * s.frm.k.toNat := by
          simp only [atDataByte, Bool.and_eq_true, decide_eq_true_eq] at hd
          exact hd.1.2
        refine ⟨rfl, hm, h0, rfl, hlt, ?_⟩
        rcases s.col.memRead_cases (dataByteAddr s.frm) with ⟨hu, h⟩ | ⟨hu, ds, hds, h⟩ | ⟨hu, ds, hds, h⟩
        · exact .inl ⟨hu, by simp only [insideLine, if_pos hd, dataByteStep, h]⟩
        · exact .inr (.inr ⟨hu, ds, hds, by simp only [insideLine, if_pos hd, dataByteStep, h, State.readByte]⟩)
        · exact .inr (.inl ⟨hu, ds, hds, by simp only [insideLine, if_pos hd, dataByteStep, h]⟩)
  · by_cases hl : s.frm.pos.toNat ≤ 10
    · right; right; right; right; right; right; right
      have hlt : s.frm.pos.toNat < eofLiteral.length := by simp [eofLiteral]; omega
      refine ⟨rfl, hl, eofLiteral[s.frm.pos.toNat], by simp, ?_⟩
      simp only [framerStep, hp, literalStep]
      rw [List.getElem?_eq_getElem hlt]
    · left
      have hge : eofLiteral.length ≤ s.frm.pos.toNat := by simp [eofLiteral]; omega
      refine ⟨?_, .inr (.inr (.inl ⟨rfl, by omega⟩))⟩
      simp only [framerStep, hp, literalStep]
      rw [List.getElem?_eq_none hge]

/-! ## Commands -/

/-- A meaning of a command or of a record type answers a next state that keeps configuration and agenda. -/
theorem exec_keeps (i : Instr) (s : State) :
    ∃ t, exec i s = .next t ∧ t.cfg = s.cfg ∧ t.agenda = s.agenda ∧ t.col = s.col ∧ t.addr = s.addr ∧ t.len = s.len ∧
      t.rdata = s.rdata := by
  cases i <;> cases hb : s.status.busy <;>
    simp [exec, execNop, execCkClr, execCkAdd, execFrmData, execFrmEnd, execFrmAll, execPrsLine, execPrsRead, execRecData,
      execRecEof, acceptOrDrop, hb]

/-- A write to CTRL while BUSY = 1 (43_control.md R191), whatever the word decodes to. -/
theorem ctrlWrite_busy {s : State} (w : Word) (h : s.status.busy = true) : ctrlWrite w s = .next s.dropped := by
  unfold ctrlWrite decodeCommand
  split_ifs <;>
    simp [exec, execNop, execCkClr, execCkAdd, execFrmData, execFrmEnd, execFrmAll, execPrsLine, execPrsRead, illegalCommand,
      acceptOrDrop, h]

/-- Everything a write to CTRL with BUSY = 0 can do (43_control.md R190, R192, R193; 40_checksum.md R101, R102). -/
theorem ctrlWrite_idle {s : State} (w : Word) (h : s.status.busy = false) :
    ctrlWrite w s = .next (s.accepted.complete true false .none) ∨
    (decodeCommand w = .ok .ckClr ∧ ctrlWrite w s = .next ((s.accepted.withCkAcc 0).complete true false .none)) ∨
    (∃ b, decodeCommand w = .ok (.ckAdd b) ∧
      ctrlWrite w s = .next ((s.accepted.withCkAcc (s.ckAcc + b)).complete true false .none)) ∨
    ctrlWrite w s = .next ((s.accepted.begun .frmData).frameArgs .data) ∨
    ctrlWrite w s = .next ((s.accepted.begun .frmEnd).frameLiteral .fin) ∨
    ctrlWrite w s = .next ((s.accepted.begun .frmAll).frameArgs .all) ∨
    ctrlWrite w s = .next ((s.accepted.begun .prsLine).parseFrom .line) ∨
    ctrlWrite w s = .next ((s.accepted.begun .prsRead).parseFrom .read) ∨
    ctrlWrite w s = .next (s.accepted.fail .illegalCmd) := by
  unfold ctrlWrite decodeCommand
  split_ifs <;>
    simp [exec, execNop, execCkClr, execCkAdd, execFrmData, execFrmEnd, execFrmAll, execPrsLine, execPrsRead, illegalCommand,
      acceptOrDrop, h]

/-! ## The parser -/

/-- What a whole byte does in phase TYPE (42_parser.md R157, R165). -/
theorem recordType_eq (s : State) (b : Byte) :
    recordType s b =
      if b = 0x00 ∨ b = 0x01 then .next (s.beginPayload b s.prs.cnt s.prs.addr)
      else .next (State.fail { s with prs := { s.prs with type := b } } .badType) := by
  unfold recordType
  rw [decodeHeader_headerOf]
  by_cases h0 : b = 0x00
  · simp [h0, exec, execRecData]
  · by_cases h1 : b = 0x01
    · simp [h1, exec, execRecEof]
    · rw [if_neg h0, if_neg h1, if_neg (by tauto)]

/-- Everything one parser step can be, by phase (42_parser.md R165). -/
theorem parserStep_seek {s : State} (h : s.prs.ph = .seek) :
    parserStep s = consumeOrFail s fun c t => .next (t.seekChar c) := by simp [parserStep, h]

theorem parserStep_record {s : State} (h : s.prs.ph ≠ .seek) (h' : s.prs.ph ≠ .idle) :
    parserStep s = consumeOrFail s fun c t => recordChar s t c := by
  cases hp : s.prs.ph <;> simp_all [parserStep]

/-! ## The machine -/

/-- While a port does not answer, IHXC makes no step (43_control.md R196). -/
theorem ihxcStep_waiting {s : State} {p : Port} (h : s.waiting = some p) : ihxcStep s = .next s := by simp [ihxcStep, h]

/-- With no transaction outstanding, IHXC's step is its operation's. -/
theorem ihxcStep_free {s : State} (h : s.waiting = none) : ihxcStep s = operationStep s := by simp [ihxcStep, h]

/-- Everything one step can be: IHXC's with nothing on the agenda, else the agenda's first move. -/
theorem step_cases (s : State) :
    (s.agenda = [] ∧ step s = ihxcStep s) ∨ ∃ m ms, s.agenda = m :: ms ∧ step s = makeMove m (s.withAgenda ms) := by
  unfold step agendaStep
  rcases h : s.agenda with _ | ⟨m, ms⟩
  · exact .inl ⟨rfl, rfl⟩
  · exact .inr ⟨m, ms, rfl, rfl⟩

end Sys2Proof.Machine
end

