-- ==== Sys2Proof/Laws/Runs.lean ====
section
/-! SUPPORT. Runs: how steps chain, what a step is while a host only waits, and that a machine that stays, stays. -/

namespace Sys2Proof.Machine

@[simp] theorem run_zero (s : State) : run 0 s = .next s := rfl

theorem run_succ {s t : State} (h : step s = .next t) (n : Nat) : run (n + 1) s = run n t := by simp [run, h]

/-- Runs chain. -/
theorem run_add {s t : State} {m : Nat} (h : run m s = .next t) (n : Nat) : run (m + n) s = run n t := by
  induction m generalizing s with
  | zero => cases h; simp
  | succ m ih =>
    cases hs : step s with
    | next u =>
      rw [run_succ hs] at h
      rw [show m + 1 + n = m + n + 1 by omega, run_succ hs, ih h]
    | fault f => simp [run, hs] at h
    | refused r => simp [run, hs] at h

/-- A state whose step is itself is never left. -/
theorem run_stays {s : State} (h : step s = .next s) (n : Nat) : run n s = .next s := by
  induction n with
  | zero => rfl
  | succ n ih => rw [run_succ h, ih]

/-- While BUSY = 1 and the host at most waits, a step is IHXC's (43_control.md R196). -/
theorem step_undisturbed {s : State} (h : s.undisturbed) (hb : s.status.busy = true) : step s = ihxcStep s := by
  rcases h with h | ⟨ms, h⟩
  · simp [step, agendaStep, h]
  · have : (s.withAgenda ms).withAgenda (.wait :: ms) = s := by rw [← h]; rfl
    simp [step, agendaStep, h, makeMove, hb, this]

/-- An operation that waits at a port stays as it is for ever (43_control.md R196). -/
theorem run_waiting {s : State} {p : Port} (h : s.undisturbed) (hb : s.status.busy = true) (hw : s.waiting = some p)
    (n : Nat) : run n s = .next s :=
  run_stays (by rw [step_undisturbed h hb, ihxcStep_waiting hw]) n

end Sys2Proof.Machine
end

