-- ==== Sys2Proof/Tests/Slice0.lean ====
section
/-! SUPPORT. Tests with expected results from the spec (95_test_vectors.md, 30_encoding.md), smoke tests of
well-formedness, and for every obligation with hypotheses a concrete input that meets all of them together. -/

namespace Sys2Proof.Tests
open Sys2Proof.Machine

/-! ## Helpers -/

/-- The characters of a text as bytes. -/
def chars (cs : List Char) : List Byte := cs.map fun c => BitVec.ofNat 8 c.toNat

/-- The state after reset with moves to make. -/
def withMoves (ms : List Move) : State := { State.reset with agenda := ms }

/-- The state after reset with an input text. -/
def atText (cs : List Char) : State := { State.reset with col := { Collab.initial with inText := chars cs } }

/-- FRM_DATA of 95_test_vectors.md T2 as accepted: ADDR = 0x1000, LEN = 1, M[0x1000] = 0xAB. -/
def framing : State :=
  { State.reset with
    addr := 0x1000
    len := 1
    op := .frmData
    status := { Status.cleared with busy := true }
    frm := { Framer.reset with ph := .line, addr := 0x1000, rem := 1 }
    col := { Collab.initial with mem := [(0x1000, 0xAB)] } }

/-- PRS_LINE as accepted, on a text. -/
def parsing (cs : List Char) : State :=
  { atText cs with
    op := .prsLine
    status := { Status.cleared with busy := true }
    prs := { Parser.reset with ph := .seek } }

/-- The state a step answers, or none where it stops. -/
def after (o : Host.Outcome State Fault Refusal) : Option State :=
  match o with
  | .next t => some t
  | .fault _ => none
  | .refused _ => none

/-! ## Decoding: words written out from 30_encoding.md R76, R81, R82 -/

theorem test_decode_nop : decodeCommand 0b00000000000000000000000000000000 = .ok .nop := by decide
theorem test_decode_ckClr : decodeCommand 0b00000000000000000000000000000001 = .ok .ckClr := by decide
/-- BYTE = 0xAA in bits 15 to 8 (95_test_vectors.md K2). -/
theorem test_decode_ckAdd : decodeCommand 0b00000000000000001010101000000010 = .ok (.ckAdd 0xAA) := by decide
theorem test_decode_frmData : decodeCommand 0b00000000000000000000000000000011 = .ok .frmData := by decide
theorem test_decode_frmEnd : decodeCommand 0b00000000000000000000000000000100 = .ok .frmEnd := by decide
theorem test_decode_frmAll : decodeCommand 0b00000000000000000000000000000101 = .ok .frmAll := by decide
theorem test_decode_prsLine : decodeCommand 0b00000000000000000000000000000110 = .ok .prsLine := by decide
theorem test_decode_prsRead : decodeCommand 0b00000000000000000000000000000111 = .ok .prsRead := by decide
/-- The header of `:03100000...`: LL = 0x03, AAAA = 0x1000, TT = 0x00. -/
theorem test_decode_recData : decodeHeader 0b00000011000100000000000000000000 = .ok (.recData 0x03 0x1000) := by decide
/-- The header of `:00123401...` (95_test_vectors.md P9). -/
theorem test_decode_recEof : decodeHeader 0b00000000000100100011010000000001 = .ok (.recEof 0x00 0x1234) := by decide
/-- 95_test_vectors.md X2, X3, K13. -/
theorem test_decode_illegal :
    [0x0000000F, 0x00000012, 0x00000103, 0x00000008, 0x00010002].map decodeCommand =
      List.replicate 5 (.error .illegalCommand) := by decide
/-- TT = 0x02 (95_test_vectors.md S5) and TT = 0xFF. -/
theorem test_decode_illegalType :
    [0x02000002, 0x000000FF].map decodeHeader = List.replicate 2 (.error .illegalType) := by decide
theorem test_decodeTableWord : decodeTableWord 32 0x03100000 = some (.recData 0x03 0x1000) ∧
    decodeTableWord 32 0x00000012 = none := by decide

/-! ## Well-formedness: an ill-formed term for each check (Instr.wf has none: every term is encodable) -/

/-- The record of 95_test_vectors.md S2. -/
def goodRecord : Record := ⟨0x03, 0x1000, 0x00, [0xAA, 0xBB, 0xCC], 0xBC⟩

/-- `:00000001FF` (30_encoding.md R78). -/
def endRecord : Record := ⟨0x00, 0x0000, 0x01, [], 0xFF⟩

theorem smoke_record_good : goodRecord.wf = true ∧ endRecord.wf = true := by decide
/-- LL = 3 with two data bytes, the sum right. -/
theorem smoke_record_length : (⟨0x03, 0x1000, 0x00, [0xAA, 0xBB], 0x88⟩ : Record).wf = false ∧
    (⟨0x03, 0x1000, 0x00, [0xAA, 0xBB], 0x88⟩ : Record).sumOk = true := by decide
/-- `:020000020000fc` (95_test_vectors.md S5). -/
theorem smoke_record_type : (⟨0x02, 0x0000, 0x02, [0x00, 0x00], 0xFC⟩ : Record).wf = false := by decide
/-- `:0400000001020304EE` (95_test_vectors.md S4). -/
theorem smoke_record_sum : (⟨0x04, 0x0000, 0x00, [0x01, 0x02, 0x03, 0x04], 0xEE⟩ : Record).wf = false := by decide
theorem smoke_config_good : Config.ihxc.wf = true := by decide
theorem smoke_config_len : ({ lenBits := 33 } : Config).wf = false ∧ ({ lenBits := 0 } : Config).wf = false := by decide
/-- The start marker among the whitespace. -/
theorem smoke_config_start : ({ ws := [0x3A, 0x0A] } : Config).wf = false := by decide
/-- A newline that is no whitespace. -/
theorem smoke_config_newline : ({ newline := 0x7C } : Config).wf = false := by decide

/-! ## Single steps and functions, from 95_test_vectors.md -/

/-- X1: a NOP clears a failure; STATUS = 0x00000206. -/
theorem test_nop : (after (execNop { State.reset with status := { Status.cleared with done := true, err := .badHex } })).map
    State.statusWord = some 0x00000206 := by decide
/-- K1. -/
theorem test_ckClr : (after (execCkClr { State.reset with ckAcc := 0x44 })).map
    (fun t => (t.ckAcc, t.statusWord)) = some (0x00, 0x00000206) := by decide
/-- K2. -/
theorem test_ckAdd : (after (execCkAdd 0xAA { State.reset with ckAcc := 0x13 })).map
    (fun t => (t.ckAcc, t.regValue regCkOut, t.statusWord)) = some (0xBD, 0x43, 0x00000006) := by decide
/-- K3. -/
theorem test_ckAdd_wraps : (after (execCkAdd 0x01 { State.reset with ckAcc := 0xFF })).map
    (fun t => (t.ckAcc, t.statusWord)) = some (0x00, 0x00000206) := by decide
/-- K13. -/
theorem test_illegal : (after (ctrlWrite 0x00010002 { State.reset with ckAcc := 0x10 })).map
    (fun t => (t.ckAcc, t.statusWord)) = some (0x10, 0x00000082) := by decide
/-- X5: a CK_CLR while FRM_DATA runs; STATUS = 0x00000301. -/
theorem test_dropped : (after (ctrlWrite 0x00000001 framing)).map State.statusWord = some 0x00000301 := by decide
/-- X7. -/
theorem test_write_addr : (after (hostWrite regAddr 0x12345678 State.reset)).map (fun t => t.regValue regAddr) =
    some 0x00005678 := by decide
/-- X6. -/
theorem test_write_ignored : after (hostWrite regStatus 0xFFFFFFFF framing) = some framing ∧
    after (hostWrite 6 1 framing) = some framing ∧ framing.regValue 6 = 0 := by decide
/-- T2 row 0. -/
theorem test_frmData_accepted : after (execFrmData { framing with op := .none, status := Status.cleared, frm := Framer.reset }) =
    some framing := by decide
/-- T2 row 1, under FRM_ALL. -/
theorem test_frmAll_open :
    (after (framerStep { framing with op := .frmAll, frm := { framing.frm with mode := .all } })).map
      (fun t => (t.frm.k, t.frm.rem, t.frm.acc, t.col.outText)) = some (1, 0, 0x11, chars [':']) := by decide
/-- T2 row 10, under FRM_ALL. -/
theorem test_frmAll_byte :
    (after (framerStep { framing with
      op := .frmAll, frm := { framing.frm with mode := .all, k := 1, rem := 0, acc := 0x11, pos := 9 } })).map
      (fun t => (t.frm.d, t.frm.acc, t.col.outText, t.col.trace)) =
    some (0xAB, 0xBC, chars ['a'], [.memRead 0x1000 0xAB, .emit 0x61 .ok]) := by decide
/-- T2 row 14. -/
theorem test_frmData_close :
    (after (framerStep { framing with frm := { framing.frm with k := 1, rem := 0, acc := 0xBC, d := 0xAB, pos := 13 } })).map
      (fun t => (t.frm.addr, t.statusWord)) = some (0x1001, 0x00000206) := by decide
/-- F11: the eleventh character of the literal is an uppercase F and completes the command. -/
theorem test_frmEnd_last :
    (after (framerStep { framing with op := .frmEnd, frm := { framing.frm with ph := .eoflit, mode := .fin, pos := 10 } })).map
      (fun t => (t.col.outText, t.statusWord)) = some (chars ['F'], 0x00000206) := by decide
/-- F15: the eleventh Emit of FRM_END faults; nothing is appended, STATUS = 0x00000272. -/
theorem test_frmEnd_fault :
    (after (framerStep { framing with
      op := .frmEnd
      frm := { framing.frm with ph := .eoflit, mode := .fin, pos := 10 }
      col := { framing.col with outDraws := [.fault] } })).map
      (fun t => (t.col.outText, t.statusWord)) = some ([], 0x00000272) := by decide
/-- T1 row 3. -/
theorem test_prsLine_len :
    (after (parserStep { parsing ['1', '0'] with prs := { Parser.reset with ph := .len, nib := true } })).map
      (fun t => (t.prs.ph, t.prs.len, t.prs.cnt, t.prs.acc)) = some (.adrh, 1, 1, 1) := by decide
/-- T1 row 9: an EndOfFile header with LL = 1. -/
theorem test_recEof_type :
    (after (parserStep { parsing ['1'] with prs :=
      { Parser.reset with ph := .type, nib := true, len := 1, cnt := 1, addr := 0x0010, acc := 0x11 } })).map
      (fun t => (t.prs.ph, t.prs.type, t.prs.acc)) = some (.data, 0x01, 0x12) := by decide
/-- P6: a Data header with LL = 0 goes on to CC. -/
theorem test_recData_empty : (after (execRecData 0x00 0x0000 (parsing []))).map (fun t => t.prs.ph) = some .cks := by decide
/-- T1 row 11. -/
theorem test_prsLine_data :
    (after (parserStep { parsing ['5'] with prs :=
      { Parser.reset with ph := .data, nib := true, hi := 5, len := 1, cnt := 1, addr := 0x0010, type := 1, acc := 0x12 } })).map
      (fun t => (t.prs.ph, t.prs.addr, t.prs.acc, t.col.mem)) = some (.cks, 0x0011, 0x67, [(0x0010, 0x55)]) := by decide
/-- T1 row 13, under PRS_READ: an EndOfFile record ends the read. -/
theorem test_prsRead_end :
    (after (parserStep { parsing ['9'] with op := .prsRead, prs :=
      { Parser.reset with ph := .cks, mode := .read, nib := true, hi := 9, len := 1, type := 1, acc := 0x67 } })).map
      State.statusWord = some 0x0000020E := by decide
/-- A Data record under PRS_READ: the next record is sought (42_parser.md R162). -/
theorem test_prsRead_next :
    (after (parserStep { parsing ['9'] with op := .prsRead, prs :=
      { Parser.reset with ph := .cks, mode := .read, nib := true, hi := 9, len := 1, type := 0, acc := 0x67 } })).map
      (fun t => (t.prs.ph, t.statusWord)) = some (.seek, 0x00000201) := by decide
/-- K6, K9 and the sum of `:00000001FF`. -/
theorem test_cks : cks [0x03, 0x10, 0x00, 0x00, 0xAA, 0xBB, 0xCC] = 0xBC ∧ cks [0x00, 0x00, 0x00, 0x01] = 0xFF ∧
    validBytes [0x00, 0x00, 0x00, 0x01, 0xFF] = true := by decide
/-- The address field of F9's first line. -/
theorem test_hex4_lowercase : hex4 0xFFF8 = chars ['f', 'f', 'f', '8'] := by decide
/-- F1. -/
theorem test_dataText : dataText Config.ihxc [(0x1000, 0xAA), (0x1001, 0xBB), (0x1002, 0xCC)] 0x1000 3 =
    chars [':', '0', '3', '1', '0', '0', '0', '0', '0', 'a', 'a', 'b', 'b', 'c', 'c', 'b', 'c', '\n'] := by decide
/-- The words of program P1 and of 30_encoding.md R84. -/
theorem test_assemble :
    asmLine ['c', 'k', '.', 'a', 'd', 'd', ' ', '0', 'x', 'a', 'a', ' ', ';', 'B', 'D'] = some [.write 0 0x0000AA02] ∧
    asmLine ['w', 'r', ' ', 'L', 'E', 'N', ',', ' ', '2'] = some [.write 3 2] ∧
    asmLine ['p', 'r', 's', '.', 'r', 'e', 'a', 'd'] = some [.write 0 0x00000007] := by decide

/-- 43_control.md R196: a MEM port that never answers a MemWrite; the Consume before it stays done, nothing is written. -/
theorem test_silent_mem : (after (ihxcStep { parsing ['5'] with
    prs := { Parser.reset with ph := .data, nib := true, hi := 5, len := 1, cnt := 1 }
    col := { (atText ['5']).col with memDraws := [.silent] } })).map
      (fun t => (t.status.busy, t.waiting, t.col.inText, t.col.mem.length, t.prs.cnt)) = some (true, some .mem, [], 0, 1) := by decide
/-- 43_control.md R196: an endless run of whitespace goes on past its listed characters. -/
theorem test_endless_blanks : (after (ihxcStep { parsing [] with
    col := { (atText []).col with inLoop := [0x20, 0x0A] } })).map
      (fun t => (t.status.busy, t.prs.ph, t.col.inText, t.col.inPos)) = some (true, .seek, [0x0A], 1) := by decide

/-! ## Witnesses: for each obligation with hypotheses, inputs that meet all of them -/

/-- FRM_DATA running with LEN = 0 at acceptance: the next step completes it. -/
def framingNone : State := { framing with frm := { framing.frm with rem := 0 } }

/-- FRM_DATA running where the sink never answers. -/
def framingSilent : State := { framing with col := { framing.col with outDraws := [.silent] } }

/-- PRS_LINE running where the source never answers. -/
def parsingSilent : State := { parsing [':'] with col := { (atText [':']).col with inDraws := [.silent] } }

/-- A state with a host program for a framer command: ADDR = 0x1000 and LEN = n. -/
def ready (n : Word) : State := { framing with op := .none, status := Status.cleared, frm := Framer.reset, len := n }

theorem framing_inv : framing.Inv where
  op := ⟨rfl, rfl, rfl, rfl⟩
  status := by unfold Status.coherent; decide
  frm := Or.inl rfl
  prs := trivial
  len := by decide
  rem := by decide
  mem := by decide

theorem framingNone_inv : framingNone.Inv :=
  ⟨framing_inv.op, framing_inv.status, framing_inv.frm, framing_inv.prs, framing_inv.len, by decide, framing_inv.mem⟩

theorem framingSilent_inv : framingSilent.Inv :=
  ⟨framing_inv.op, framing_inv.status, framing_inv.frm, framing_inv.prs, framing_inv.len, framing_inv.rem, framing_inv.mem⟩

theorem parsing_inv (cs : List Char) : (parsing cs).Inv where
  op := by simp [State.opCoherent, parsing, Parser.reset, atText, State.reset, Framer.reset]
  status := by simp [Status.coherent, parsing, Status.cleared]
  frm := trivial
  prs := trivial
  len := by simp [parsing, atText, State.reset, Config.ihxc]
  rem := by simp [parsing, atText, State.reset, Config.ihxc, Framer.reset]
  mem := by simp [parsing, atText, State.reset, Collab.initial, Memory.wf]

/-- PRS_LINE at the second digit of a data byte where MEM never answers. -/
def writingSilent : State :=
  { parsing ['5'] with
    prs := { Parser.reset with ph := .data, nib := true, hi := 5, len := 1, cnt := 1, addr := 0x0010, type := 1, acc := 0x12 }
    col := { (atText ['5']).col with memDraws := [.silent] } }

/-- FRM_DATA at its data byte (T2 row 10), with answers to come of MEM and OUT. -/
def readingSilent (m : List MemDraw) (o : List Draw) : State :=
  { framing with
    frm := { framing.frm with k := 1, rem := 0, acc := 0x11, pos := 9 }
    col := { framing.col with memDraws := m, outDraws := o } }

theorem writingSilent_inv : writingSilent.Inv where
  op := ⟨rfl, rfl, rfl, by decide⟩
  status := (parsing_inv []).status
  frm := trivial
  prs := ⟨by decide, by decide, .inr rfl⟩
  len := by decide
  rem := by decide
  mem := (parsing_inv []).mem

theorem readingSilent_inv (m : List MemDraw) (o : List Draw) : (readingSilent m o).Inv where
  op := framing_inv.op
  status := framing_inv.status
  frm := .inr (show 1 ≤ (1 : BitVec 5).toNat ∧ (1 : BitVec 5).toNat ≤ 16 ∧ (9 : BitVec 6).toNat ≤ 11 + 2 * (1 : BitVec 5).toNat
    by decide)
  prs := framing_inv.prs
  len := framing_inv.len
  rem := show (0 : Word).toNat < 2 ^ 32 by decide
  mem := framing_inv.mem

theorem parsingSilent_inv : parsingSilent.Inv :=
  have h := parsing_inv [':']
  ⟨h.op, h.status, h.frm, h.prs, h.len, h.rem, h.mem⟩

theorem atText_inServes (cs : List Char) : (atText cs).col.inServes := by
  simp [Collab.inServes, allServed, atText, Collab.initial]

theorem atText_memServes (cs : List Char) : (atText cs).col.memServes := by
  simp [Collab.memServes, atText, Collab.initial]

theorem ready_serves (n : Word) : (ready n).undisturbed ∧ (ready n).col.outServes ∧ (ready n).col.memServes := by
  simp [State.undisturbed, Collab.outServes, Collab.memServes, allServed, ready, framing, Collab.initial, State.reset]

theorem ready_len (n : Word) : n.toNat = (lenField (ready n).cfg (ready n).len).toNat := by
  simp [lenField, ready, framing, State.reset, Config.ihxc]
  exact (Nat.mod_eq_of_lt n.isLt).symm

theorem witness_DecodeEncodeAgree : decodeCommand 0x0000AA02 = .ok (.ckAdd 0xAA) ∧
    decodeHeader 0x03100000 = .ok (.recData 0x03 0x1000) := by decide

theorem witness_RowsAreDisjoint : rowCkAdd ∈ commandRows ∧ rowCkAdd.hits 0x0000FF02 = true ∧
    rowRecEof ∈ recordRows ∧ rowRecEof.hits 0x00123401 = true := by decide

/-- One illegal word for each of the four reasons, at the edge of its range. -/
theorem witness_IllegalWordsExactly :
    (withMoves [.write regCtrl 0x00000008]).agenda = .write regCtrl 0x00000008 :: [] ∧
    (withMoves [.write regCtrl 0x00000008]).status.busy = false ∧
    decodeCommand 0x00000008 = .error .illegalCommand ∧ decodeCommand 0x00000012 = .error .illegalCommand ∧
    decodeCommand 0x00010002 = .error .illegalCommand ∧ decodeCommand 0x00000107 = .error .illegalCommand := by decide

theorem witness_HexDigitsReadBack : hexval 0x39 = some 9 ∧ hexval 0x61 = some 10 ∧ hexval 0x46 = some 15 ∧
    (0x63 : Byte) ∈ hex2 0xBC ∧ (0x66 : Byte) ∈ hex4 0xFFF8 := by decide

theorem witness_DataLinesAreWellFormed : 1 ≤ [(0x00 : Byte)].length ∧ [(0x00 : Byte)].length ≤ 16 ∧
    1 ≤ (List.replicate 16 (0xFF : Byte)).length ∧ (List.replicate 16 (0xFF : Byte)).length ≤ 16 := by decide

theorem witness_ChunksCoverTheRange : 0 < (1 + 15) / 16 ∧ 1 < (17 + 15) / 16 := by decide

theorem witness_ChecksumFunction : [(1 : Byte), 2, 3].Perm [3, 1, 2] := by decide

theorem witness_ChecksumLaws : sum8 [0x00, 0x00, 0x00, 0x01, 0xFF] = 0 ∧ (0x01 : Byte) ≠ 0x81 := by decide

theorem witness_StepRunsTheCommand :
    (withMoves [.write regCtrl 0x00000002]).agenda = .write regCtrl 0x00000002 :: [] ∧
    decodeCommand 0x00000002 = .ok (.ckAdd 0x00) ∧
    (withMoves [.write regCtrl 0x0000000F]).agenda = .write regCtrl 0x0000000F :: [] ∧
    decodeCommand 0x0000000F = .error .illegalCommand := by decide

/-- PRS_LINE at the second digit of TT of `:01001001`: IHXC steps next. -/
def atType : State :=
  { parsing ['1'] with prs := { Parser.reset with ph := .type, nib := true, len := 1, cnt := 1, addr := 0x0010, acc := 0x11 } }

theorem witness_StepRunsTheRecordType :
    (atType.agenda = [] ∧ { atType with agenda := [.ihxc] }.agenda = .ihxc :: [] ∧
      { atType with agenda := [.wait] }.agenda = .wait :: [] ∧ atType.status.busy = true) ∧
    atType.op.isParser = true ∧ atType.waiting = none ∧ atType.prs.ph = .type ∧ atType.prs.nib = true ∧
    (∃ c, atType.col.consume = .answer (.chr 0x31) c) ∧ hexval 0x31 = some 1 ∧
    decodeHeader (headerOf atType.prs.cnt atType.prs.addr (pairByte atType.prs.hi 1)) = .ok (.recEof 0x01 0x0010) :=
  ⟨by decide, by decide, by decide, by decide, by decide, ⟨_, rfl⟩, by decide, by decide⟩

theorem witness_PlacedInstructionRunsNext : Instr.isCommand .prsRead = true ∧ Instr.isCommand (.recEof 0x00 0x1234) = false ∧
    decodeCommand (encode (.recEof 0x00 0x1234)) = .error .illegalCommand ∧
    decodeCommand (encode (.recData 0x00 0x0001)) = .error .illegalCommand := by decide

theorem witness_NopCompletes : State.reset.status.busy = false ∧ State.reset.ckAcc = 0 ∧
    ∃ t, exec .nop State.reset = .next t := ⟨rfl, rfl, _, rfl⟩

theorem witness_CkClrCompletes : State.reset.status.busy = false ∧ framing.status.busy = true ∧
    ∃ t, exec .ckClr State.reset = .next t := ⟨rfl, rfl, _, rfl⟩

theorem witness_CkAddCompletes : State.reset.status.busy = false ∧ (∃ t, exec (.ckAdd 0xFF) State.reset = .next t) ∧
    ((0x00000012 : Word).extractLsb' 0 4 = 2 ∧ (0x00000012 : Word).extractLsb' 4 4 ≠ 0) ∧
    (0x00010002 : Word).extractLsb' 0 4 = 2 ∧ (0x00010002 : Word).extractLsb' 16 16 ≠ 0 :=
  ⟨rfl, ⟨_, rfl⟩, by decide, by decide, by decide⟩

theorem witness_IllegalCommandCompletes : State.reset.idle ∧ State.reset.ckAcc = 0 ∧
    decodeCommand 0x0000000F = .error .illegalCommand ∧ ∃ t, ctrlWrite 0x0000000F State.reset = .next t :=
  ⟨by simp [State.idle, State.reset, Status.reset, Framer.reset, Parser.reset], rfl, by decide, _, rfl⟩

theorem witness_CkComputeAndVerify :
    (withMoves (ckCompute [] ++ [.wait])).status.busy = false ∧ (withMoves (ckVerify [0xFF, 0x01])).status.busy = false ∧
    (withMoves (ckCompute [] ++ [.wait])).agenda = ckCompute [] ++ [.wait] ∧
    (withMoves (ckVerify [0xFF, 0x01])).agenda = ckVerify [0xFF, 0x01] ++ [] := by decide

theorem witness_AcceptanceStep : State.reset.status.busy = false ∧ decodeCommand 0x00000000 = .ok .nop ∧
    decodeCommand 0x00000001 = .ok .ckClr ∧ decodeCommand 0x0000FF02 = .ok (.ckAdd 0xFF) ∧
    decodeCommand 0xFFFFFFFF = .error .illegalCommand := by decide

theorem witness_CommandWhileBusyIsDropped :
    { framing with agenda := [.write regCtrl 0x00000001] }.agenda = .write regCtrl 0x00000001 :: [] ∧
    { framing with agenda := [.write regCtrl 0x00000001] }.status.busy = true := by decide

theorem witness_RegisterReads : (withMoves [.read 0]).agenda = .read 0 :: [] ∧ (withMoves [.read 7]).agenda = .read 7 :: [] := by
  decide

/-- One write for each clause: CTRL, ADDR, LEN and the first and last ignored register. -/
theorem witness_RegisterWrites :
    [(0 : BitVec 3), 1, 2, 3, 7].map (fun r => (withMoves [.write r 0xFFFFFFFF]).agenda) =
      [(0 : BitVec 3), 1, 2, 3, 7].map (fun r => [.write r 0xFFFFFFFF]) := by decide

theorem witness_RunningOperationIgnoresArguments : (∃ t, ihxcStep framing = .next t) ∧
    ∃ t, ihxcStep (parsing [':']) = .next t := ⟨⟨_, rfl⟩, _, rfl⟩

theorem witness_ResetValues : { framing with agenda := [.reset] }.agenda = .reset :: [] := by decide

theorem witness_ResetAbandonsTheOperation : { framing with agenda := [.reset] }.agenda = [.reset] ∧
    { framing with agenda := [.reset] }.status.busy = true := by decide

theorem witness_StepKeepsCoherence : framing.Inv ∧ (∃ t, step framing = .next t) ∧
    (parsing [':']).Inv ∧ ∃ t, step (parsing [':']) = .next t := ⟨framing_inv, ⟨_, rfl⟩, parsing_inv _, _, rfl⟩

theorem witness_CoherentStateNeverFaults : framing.Inv ∧ (parsing [':']).Inv := ⟨framing_inv, parsing_inv _⟩

/-- One refusal of each kind. -/
theorem witness_RefusalsExactly :
    step { framing with agenda := [.platform (.poke 0 1)] } = .refused .foreignAccess ∧
    step { framing with frm := { framing.frm with k := 1, pos := 9 }, col := { framing.col with memUp := false } } =
      .refused (.portUnconnected .mem) ∧
    step { parsing [':'] with col := { (atText [':']).col with inUp := false } } = .refused (.portUnconnected .inp) ∧
    step { framing with col := { framing.col with outUp := false } } = .refused (.portUnconnected .out) := ⟨rfl, rfl, rfl, rfl⟩

theorem witness_StepTransactions : (∃ t, step framing = .next t) ∧ (∀ p ms, framing.agenda ≠ .platform p :: ms) ∧
    framing.op.isFramer = true ∧ (∃ t, step (parsing [':']) = .next t) ∧
    (∀ p ms, (parsing [':']).agenda ≠ .platform p :: ms) ∧ (parsing [':']).op.isParser = true :=
  ⟨⟨_, rfl⟩, by simp [framing, State.reset], rfl, ⟨_, rfl⟩, by simp [parsing, atText, State.reset], rfl⟩

theorem witness_CkAccChangesOnlyByTheCku :
    (after (step (withMoves [.write regCtrl 0x0000FF02]))).map State.ckAcc = some 0xFF ∧
    (withMoves [.write regCtrl 0x0000FF02]).ckAcc = 0 := by decide

theorem witness_ArgumentsChangeOnlyByTheHost :
    (after (step (withMoves [.write regAddr 0xFFFFFFFF]))).map State.addr = some 0xFFFF ∧
    (after (step (withMoves [.write regLen 0xFFFFFFFF]))).map State.len = some 0xFFFFFFFF ∧
    State.reset.addr = 0 ∧ State.reset.len = 0 := by decide

theorem witness_ConfigurationNeverChanges : (after (run 3 framing)).isSome = true := by decide

theorem witness_FlagsHoldWhileBusy : framing.Inv ∧ framing.status.busy = true ∧
    (after (step framing)).map (fun t => t.status.busy) = some true ∧
    (after (step { framing with agenda := [.write regCtrl 0] })).map (fun t => (t.status.busy, t.status.drop)) =
      some (true, true) := ⟨framing_inv, by decide, by decide, by decide⟩

/-- A completion, a failure and a reset. -/
theorem witness_BusyEndsByCompletionOrReset :
    (framingNone.Inv ∧ framingNone.status.busy = true ∧
      (after (step framingNone)).map (fun t => (t.status.busy, t.status.ok)) = some (false, true)) ∧
    ((parsing []).Inv ∧ (parsing []).status.busy = true ∧
      (after (step (parsing []))).map (fun t => t.status.busy) = some false) ∧
    (after (step { framing with agenda := [.reset] })).map (fun t => t.status.busy) = some false :=
  ⟨⟨framingNone_inv, by decide, by decide⟩, ⟨parsing_inv _, by decide, by decide⟩, by decide⟩

theorem witness_IdleStateSurvives : (ready 3).op = .none ∧ (ready 3).agenda = [] := by decide

/-- One state for each clause: IN; MEM after a Consume; OUT alone; MEM at a MemRead; OUT after a MemRead. -/
theorem witness_SilentPortKeepsBusy :
    (parsingSilent.Inv ∧ parsingSilent.undisturbed ∧ parsingSilent.waiting = none ∧ parsingSilent.op.isParser = true ∧
      parsingSilent.col.inUp = true ∧ parsingSilent.col.inDraws = .silent :: []) ∧
    (writingSilent.Inv ∧ writingSilent.undisturbed ∧ writingSilent.waiting = none ∧ writingSilent.op.isParser = true ∧
      writingSilent.prs.ph = .data ∧ writingSilent.prs.nib = true ∧
      (∃ c, writingSilent.col.consume = .answer (.chr 0x35) c) ∧ isHex 0x35 = true ∧
      writingSilent.col.memUp = true ∧ writingSilent.col.memDraws = .silent :: []) ∧
    (framingSilent.Inv ∧ framingSilent.undisturbed ∧ framingSilent.waiting = none ∧ framingSilent.op.isFramer = true ∧
      ¬ (framingSilent.op = .frmData ∧ framingSilent.frm.pos = 0 ∧ framingSilent.frm.rem = 0) ∧
      ¬ (framingSilent.frm.ph = .line ∧ atDataByte framingSilent.frm = true) ∧ framingSilent.col.outUp = true ∧
      framingSilent.col.outDraws = .silent :: []) ∧
    (∀ m o, (readingSilent m o).Inv ∧ (readingSilent m o).undisturbed ∧ (readingSilent m o).waiting = none ∧
      (readingSilent m o).op.isFramer = true ∧ (readingSilent m o).frm.ph = .line ∧
      atDataByte (readingSilent m o).frm = true ∧ (readingSilent m o).col.memUp = true ∧
      (readingSilent m o).col.outUp = true) ∧
    (readingSilent [.silent] []).col.memDraws = .silent :: [] ∧
    (∃ v c, (readingSilent [] [.silent]).col.memRead (dataByteAddr (readingSilent [] [.silent]).frm) = .answer v c) ∧
    (readingSilent [] [.silent]).col.outDraws = .silent :: [] :=
  ⟨⟨parsingSilent_inv, .inl rfl, by decide, by decide, by decide, by decide⟩,
    ⟨writingSilent_inv, .inl rfl, by decide, by decide, by decide, by decide, ⟨_, rfl⟩, by decide, by decide, by decide⟩,
    ⟨framingSilent_inv, .inl rfl, by decide, by decide, by decide, by decide, by decide, by decide⟩,
    fun m o => ⟨readingSilent_inv m o, .inl rfl, rfl, rfl, rfl, rfl, rfl, rfl⟩, rfl, ⟨_, _, rfl⟩, rfl⟩

/-- One blank listed, two repeated for ever. -/
theorem witness_EndlessBlanksKeepBusy :
    let s : State := { atText [' '] with col := { (atText [' ']).col with inLoop := chars ['\n', ' '] } }
    s.status.busy = false ∧ s.undisturbed ∧ s.col.inServes ∧ (∀ c ∈ s.col.inText, isWs s.cfg c = true) ∧
    s.col.inLoop ≠ [] ∧ ∀ c ∈ s.col.inLoop, isWs s.cfg c = true :=
  ⟨by decide, .inl rfl, atText_inServes [' '], by decide, by decide, by decide⟩

theorem witness_HostMovesLeaveTheOperationAlone :
    { framing with agenda := [.write 7 0] }.agenda = .write 7 0 :: [] ∧
    { framing with agenda := [.read 0] }.agenda = .read 0 :: [] ∧ framing.status.busy = true := by decide

/-- The premises of the framer's statements hold for every length. -/
theorem ready_premises (n : Word) : (ready n).status.busy = false ∧ (ready n).undisturbed ∧
    (ready n).col.outServes ∧ (ready n).col.memServes ∧ n.toNat = (lenField (ready n).cfg (ready n).len).toNat :=
  ⟨rfl, (ready_serves n).1, (ready_serves n).2.1, (ready_serves n).2.2, ready_len n⟩

/-- No byte, and two lines. -/
theorem witness_FrmDataEmitsTheDataText :
    ((ready 0).status.busy = false ∧ (ready 0).undisturbed ∧ (ready 0).col.outServes ∧ (ready 0).col.memServes ∧
      0 = (lenField (ready 0).cfg (ready 0).len).toNat) ∧
    ((ready 17).status.busy = false ∧ (ready 17).undisturbed ∧ (ready 17).col.outServes ∧ (ready 17).col.memServes ∧
      17 = (lenField (ready 17).cfg (ready 17).len).toNat) := ⟨ready_premises 0, ready_premises 17⟩

/-- A host that waits, then reads. -/
theorem witness_undisturbed : { ready 1 with agenda := [.wait, .read regStatus] }.undisturbed := .inr ⟨_, rfl⟩

theorem witness_FrmEndEmitsTheLiteral : (ready 0).status.busy = false ∧ (ready 0).undisturbed ∧
    (ready 0).col.outServes := ⟨rfl, (ready_serves 0).1, (ready_serves 0).2.1⟩

theorem witness_FrmAllEmitsTheWholeText : (ready 0).status.busy = false ∧ (ready 0).undisturbed ∧
    (ready 0).col.outServes ∧ (ready 0).col.memServes ∧ 0 = (lenField (ready 0).cfg (ready 0).len).toNat :=
  ready_premises 0

/-- The state of `ready 1` where the sink serves j calls and faults at the next. -/
def faulty (j : Nat) : State :=
  { ready 1 with col := { framing.col with outDraws := List.replicate j .ok ++ [.fault] } }

/-- The last character of FRM_DATA's one line, F15 for FRM_END, and the first character of FRM_ALL. -/
theorem witness_EmitFaultEndsTheCommand :
    (∀ j ∈ [13, 10, 0], (faulty j).status.busy = false ∧ (faulty j).undisturbed ∧ (faulty j).col.outUp = true ∧
      (faulty j).col.memServes ∧ 1 = (lenField (faulty j).cfg (faulty j).len).toNat ∧
      (faulty j).col.outDraws = List.replicate j .ok ++ .fault :: []) ∧
    13 < (dataText (faulty 13).cfg (faulty 13).col.mem (faulty 13).addr 1).length ∧ 10 < eofLiteral.length ∧
    0 < (allText (faulty 0).cfg (faulty 0).col.mem (faulty 0).addr 1).length :=
  ⟨fun _ _ => ⟨rfl, .inl rfl, rfl, (ready_serves 1).2.2, rfl, rfl⟩, by decide, by decide, by decide⟩

theorem witness_FramerRefinesThePseudocode : (ready 17).status.busy = false ∧ (ready 17).undisturbed ∧
    17 = (lenField (ready 17).cfg (ready 17).len).toNat := ⟨rfl, (ready_serves 17).1, by decide⟩

theorem witness_ParserRefinesThePseudocode : (atText [':']).status.busy = false ∧ (atText [':']).undisturbed ∧
    (atText [':']).col.inLoop = [] ∧ (atText [':']).col.inText.length < 2 := ⟨rfl, .inl rfl, by decide, by decide⟩

/-- `:00000001Ff` with a blank before it and a character after it. -/
theorem witness_PrsLineReadsOneRecord :
    let s := atText [' ', ':', '0', '0', '0', '0', '0', '0', '0', '1', 'F', 'f', 'x']
    s.status.busy = false ∧ s.undisturbed ∧ s.col.inServes ∧ s.col.memServes ∧
    s.cfg.startOk = true ∧ endRecord.wf = true ∧
    textOfRecord s.cfg endRecord (chars [' ', ':', '0', '0', '0', '0', '0', '0', '0', '1', 'F', 'f']) ∧
    s.col.inText = chars [' ', ':', '0', '0', '0', '0', '0', '0', '0', '1', 'F', 'f'] ++ chars ['x'] := by
  refine ⟨by decide, .inl rfl, atText_inServes _, atText_memServes _, by decide, by decide,
    ⟨chars [' '], chars ['0', '0', '0', '0', '0', '0', '0', '1', 'F', 'f'], by decide, by decide, by decide⟩, by decide⟩

/-- The text of program P2: one Data record, a newline, the end-of-file record. -/
def p2Text : List Char :=
  [':', '0', '2', '1', '2', '3', '4', '0', '0', 'd', 'e', 'a', 'd', '2', 'd', '\n', ':', '0', '0', '0', '0', '0', '0', '0',
    '1', 'F', 'F']

theorem witness_PrsReadReadsTheStream :
    let r : Record := ⟨0x02, 0x1234, 0x00, [0xDE, 0xAD], 0x2D⟩
    let s := atText p2Text
    s.status.busy = false ∧ s.undisturbed ∧ s.col.inServes ∧ s.col.memServes ∧
    s.cfg.startOk = true ∧ (∀ q ∈ [r], q.wf = true ∧ q.tt = 0x00) ∧ endRecord.wf = true ∧ endRecord.tt = 0x01 ∧
    textOfStream s.cfg ([r] ++ [endRecord]) (chars p2Text) ∧ s.col.inText = chars p2Text ++ [] := by
  refine ⟨by decide, .inl rfl, atText_inServes _, atText_memServes _, by decide, by decide,
    by decide, by decide, ?_, by decide⟩
  refine ⟨chars (p2Text.take 15), chars (p2Text.drop 15), by decide,
    ⟨[], chars ((p2Text.take 15).drop 1), by decide, by decide, by decide⟩,
    chars (p2Text.drop 15), [], by decide, ⟨chars ['\n'], chars (p2Text.drop 17), by decide, by decide, by decide⟩, rfl⟩

/-- P30's failing record, LF after it. -/
theorem witness_BadChecksumKeepsTheData :
    let r : Record := ⟨0x01, 0x0000, 0x00, [0x22], 0xDE⟩
    let s := atText [':', '0', '1', '0', '0', '0', '0', '0', '0', '2', '2', 'd', 'e', '\n']
    s.status.busy = false ∧ s.undisturbed ∧ s.col.inServes ∧ s.col.memServes ∧
    s.cfg.startOk = true ∧ r.lengthOk = true ∧ r.typeOk = true ∧ r.sumOk = false ∧
    textOfRecord s.cfg r (chars [':', '0', '1', '0', '0', '0', '0', '0', '0', '2', '2', 'd', 'e']) ∧
    s.col.inText = chars [':', '0', '1', '0', '0', '0', '0', '0', '0', '2', '2', 'd', 'e'] ++ chars ['\n'] := by
  refine ⟨by decide, .inl rfl, atText_inServes _, atText_memServes _, by decide, by decide,
    by decide, by decide,
    ⟨[], chars ['0', '1', '0', '0', '0', '0', '0', '0', '2', '2', 'd', 'e'], by decide, by decide, by decide⟩, by decide⟩

/-- P33, TT = 0x02. -/
theorem witness_BadTypeWritesNothing :
    let s := atText ['\n', ':', '0', '2', '0', '0', '0', '0', '0', '2', 'z', 'z']
    s.status.busy = false ∧ s.undisturbed ∧ s.col.inServes ∧ s.cfg.startOk = true ∧
    (∀ c ∈ chars ['\n'], isWs s.cfg c = true) ∧
    hexPairs (chars ['0', '2', '0', '0', '0', '0', '0', '2']) = some [0x02, 0x00, 0x00, 0x02] ∧ 2 ≤ (0x02 : Byte).toNat ∧
    s.col.inText = chars ['\n'] ++ chColon :: chars ['0', '2', '0', '0', '0', '0', '0', '2'] ++ chars ['z', 'z'] := by
  refine ⟨by decide, .inl rfl, atText_inServes _, by decide, by decide, by decide,
    by decide, by decide⟩

/-- One data byte of two whole, then: a half byte and a non-hex character; a non-hex character; the end, after all data
bytes and one digit of CC. -/
theorem witness_BrokenRecordKeepsWholeBytes :
    (let s := atText [':', '0', '2', '0', '0', '0', '0', '0', '0', '1', '1', '2', 'z', '3']
     s.status.busy = false ∧ s.undisturbed ∧ s.col.inServes ∧ s.col.memServes ∧
     s.cfg.startOk = true ∧ hexPairs (chars ['0', '2', '0', '0', '0', '0', '0', '0', '1', '1']) =
       some ([0x02, 0x00, 0x00, 0x00] ++ [0x11]) ∧ [(0x11 : Byte)].length ≤ (0x02 : Byte).toNat ∧
     (∃ c, chars ['2'] = [c] ∧ isHex c = true) ∧
     s.col.inText = [] ++ chColon :: chars ['0', '2', '0', '0', '0', '0', '0', '0', '1', '1'] ++ chars ['2'] ++
       chars ['z', '3'] ∧ chars ['z', '3'] = 0x7A :: chars ['3'] ∧ isHex 0x7A = false) ∧
    (let s := atText [':', '0', '1', '0', '0', '0', '0', '0', '1', '1', '1', '2']
     s.status.busy = false ∧ s.undisturbed ∧ s.col.inServes ∧ s.col.memServes ∧
     s.cfg.startOk = true ∧ hexPairs (chars ['0', '1', '0', '0', '0', '0', '0', '1', '1', '1']) =
       some ([0x01, 0x00, 0x00, 0x01] ++ [0x11]) ∧ [(0x11 : Byte)].length ≤ (0x01 : Byte).toNat ∧
     (∃ c, chars ['2'] = [c] ∧ isHex c = true) ∧
     s.col.inText = [] ++ chColon :: chars ['0', '1', '0', '0', '0', '0', '0', '1', '1', '1'] ++ chars ['2'] ++ [] ∧ s.col.inLoop = []) := by
  refine ⟨⟨by decide, .inl rfl, atText_inServes _, atText_memServes _, by decide, by decide,
    by decide, ⟨0x32, by decide⟩, by decide, by decide, by decide⟩,
    ⟨by decide, .inl rfl, atText_inServes _, atText_memServes _, by decide, by decide,
    by decide, ⟨0x32, by decide⟩, by decide, by decide⟩⟩

/-- P14 after a blank, and P13. -/
theorem witness_SeekStartFailures :
    ((atText [' ', 'x', ':']).status.busy = false ∧ (atText [' ', 'x', ':']).undisturbed ∧
      (atText [' ', 'x', ':']).col.inServes ∧ (∀ c ∈ chars [' '], isWs Config.ihxc c = true) ∧
      (atText [' ', 'x', ':']).col.inText = chars [' '] ++ chars ['x', ':'] ∧ isWs Config.ihxc 0x78 = false ∧
      (0x78 : Byte) ≠ chColon) ∧
    ((∀ c ∈ chars [' ', ' ', ' '], isWs Config.ihxc c = true) ∧
      (atText [' ', ' ', ' ']).col.inText = chars [' ', ' ', ' '] ++ [] ∧ (atText [' ', ' ', ' ']).col.inLoop = []) := by
  refine ⟨⟨by decide, .inl rfl, atText_inServes _, by decide, by decide, by decide, by decide⟩, by decide, by decide,
    by decide⟩

/-- The text of program P2 is what FRM_ALL emits for two bytes at 0x1234. -/
theorem witness_RoundTripReproducesTheRange :
    let s := atText p2Text
    s.status.busy = false ∧ s.undisturbed ∧ s.col.inServes ∧ s.col.memServes ∧
    s.cfg.startOk = true ∧ s.cfg.newlineOk = true ∧ s.col.mem.wf ∧
    s.col.inText = allText s.cfg [(0x1234, 0xDE), (0x1235, 0xAD)] 0x1234 2 := by
  refine ⟨by decide, .inl rfl, atText_inServes _, atText_memServes _, by decide, by decide,
    by decide, by decide⟩

end Sys2Proof.Tests
end

section
/-! The configuration (00_scope.md R5, 10_state.md R22). IHXC's own step leaves alone all that `State.sameHost` names; the
moves of the host and of the platform keep the configuration; so a run does, by induction on its number of steps. -/

namespace Sys2Proof.Machine

/-! ## What leaves the host's part of the state alone -/

@[simp] theorem State.sameHost.refl (s : State) : s.sameHost s := ⟨rfl, rfl, rfl, rfl, rfl, rfl⟩

theorem State.sameHost.trans {s t u : State} (htu : u.sameHost t) (hst : t.sameHost s) : u.sameHost s := by
  obtain ⟨hcfg, haddr, hlen, hck, hrd, hag⟩ := hst
  obtain ⟨hcfg', haddr', hlen', hck', hrd', hag'⟩ := htu
  exact ⟨hcfg'.trans hcfg, haddr'.trans haddr, hlen'.trans hlen, hck'.trans hck, hrd'.trans hrd, hag'.trans hag⟩

@[simp] theorem State.complete_sameHost (s : State) (ok eof : Bool) (err : FailKind) :
    (s.complete ok eof err).sameHost s := by simp [State.sameHost]

@[simp] theorem State.fail_sameHost (s : State) (k : FailKind) : (s.fail k).sameHost s := by simp [State.sameHost]

@[simp] theorem State.withCol_sameHost (s : State) (c : Collab) : (s.withCol c).sameHost s := by simp [State.sameHost]

@[simp] theorem State.awaiting_sameHost (s : State) (c : Collab) (p : Port) : (s.awaiting c p).sameHost s := by
  simp [State.sameHost]

@[simp] theorem State.frameLiteral_sameHost (s : State) (m : FMode) : (s.frameLiteral m).sameHost s := by
  simp [State.sameHost]

@[simp] theorem State.openLine_sameHost (s : State) : s.openLine.sameHost s := by simp [State.sameHost]

@[simp] theorem State.nextPos_sameHost (s : State) : s.nextPos.sameHost s := by simp [State.sameHost]

@[simp] theorem State.readByte_sameHost (s : State) (a : Addr) (ds : List MemDraw) : (s.readByte a ds).sameHost s := by
  simp [State.sameHost, State.readByte]

@[simp] theorem State.beginPayload_sameHost (s : State) (tt ll : Byte) (aaaa : Addr) :
    (s.beginPayload tt ll aaaa).sameHost s := by simp [State.sameHost]

@[simp] theorem State.firstDigit_sameHost (s : State) (v : Nib) : (s.firstDigit v).sameHost s := by simp [State.sameHost]

@[simp] theorem State.tookPair_sameHost (s : State) (b : Byte) : (s.tookPair b).sameHost s := by simp [State.sameHost]

@[simp] theorem State.wroteByte_sameHost (s : State) : s.wroteByte.sameHost s := by simp [State.sameHost]

@[simp] theorem State.closeLine_sameHost (s : State) : s.closeLine.sameHost s := by
  unfold State.closeLine
  dsimp only
  split
  · split <;> simp [State.sameHost]
  · simp [State.sameHost]

@[simp] theorem State.nextLiteral_sameHost (s : State) : s.nextLiteral.sameHost s := by
  unfold State.nextLiteral
  split <;> simp

@[simp] theorem State.seekChar_sameHost (s : State) (c : Byte) : (s.seekChar c).sameHost s := by
  unfold State.seekChar
  split
  · simp
  · split <;> simp [State.sameHost]

@[simp] theorem State.recordDone_sameHost (s : State) : s.recordDone.sameHost s := by
  unfold State.recordDone
  split
  · simp
  · split <;> simp [State.sameHost]

@[simp] theorem State.checkSum_sameHost (s : State) : s.checkSum.sameHost s := by
  unfold State.checkSum
  split <;> simp

/-! ## IHXC's step -/

/-- `t` is the state after the step's register updates, `k` what the step does once the character is out. -/
theorem emitOrFail_sameHost {s t u : State} {ch : Byte} {k : State → State} (ht : t.sameHost s)
    (hk : ∀ v, (k v).sameHost v) (h : emitOrFail s t ch k = .next u) : u.sameHost s := by
  rcases emitOrFail_cases s t ch k with ⟨-, he⟩ | ⟨-, ds, -, he⟩ | ⟨-, ds, -, he⟩ | ⟨-, ds, -, he⟩ <;> rw [he] at h <;>
    cases h
  · exact (hk _).trans ((t.withCol_sameHost _).trans ht)
  · exact (State.fail_sameHost _ _).trans ((t.withCol_sameHost _).trans ht)
  · exact s.awaiting_sameHost _ _

theorem consumeOrFail_sameHost {s u : State} {k : Byte → State → Host.Outcome State Fault Refusal}
    (hk : ∀ c t, t.sameHost s → k c t = .next u → u.sameHost s) (h : consumeOrFail s k = .next u) : u.sameHost s := by
  rcases consumeOrFail_cases s k with ⟨-, he⟩ | ⟨-, ds, ch, rest, -, -, he⟩ | ⟨-, ds, -, -, he⟩ | ⟨-, ds, -, he⟩ |
    ⟨-, ds, -, he⟩ <;> rw [he] at h
  · cases h
  · exact hk _ _ (s.withCol_sameHost _) h
  · cases h
    exact (State.fail_sameHost _ _).trans (s.withCol_sameHost _)
  · cases h
    exact (State.fail_sameHost _ _).trans (s.withCol_sameHost _)
  · cases h
    exact s.awaiting_sameHost _ _

theorem framerStep_sameHost {s u : State} (h : framerStep s = .next u) : u.sameHost s := by
  rcases framerStep_cases s with ⟨he, -⟩ | ⟨-, -, -, -, he⟩ | ⟨-, -, -, -, he⟩ | ⟨-, -, -, -, he⟩ |
    ⟨-, -, -, -, -, he⟩ | ⟨-, -, -, -, -, ⟨-, he⟩ | ⟨-, ds, -, he⟩ | ⟨-, ds, -, he⟩⟩ | ⟨-, -, -, -, he⟩ |
    ⟨-, -, ch, -, he⟩ <;> rw [he] at h
  · cases h
  · cases h
    exact s.complete_sameHost _ _ _
  · exact emitOrFail_sameHost (s.frameLiteral_sameHost _) State.nextLiteral_sameHost h
  · exact emitOrFail_sameHost s.openLine_sameHost State.nextPos_sameHost h
  · exact emitOrFail_sameHost (.refl s) State.nextPos_sameHost h
  · cases h
  · cases h
    exact s.awaiting_sameHost _ _
  · exact emitOrFail_sameHost (s.readByte_sameHost _ _) State.nextPos_sameHost h
  · exact emitOrFail_sameHost (.refl s) State.closeLine_sameHost h
  · exact emitOrFail_sameHost (.refl s) State.nextLiteral_sameHost h

theorem recordType_sameHost {s u : State} {b : Byte} (h : recordType s b = .next u) : u.sameHost s := by
  rw [recordType_eq] at h
  split at h <;> cases h
  · exact s.beginPayload_sameHost _ _ _
  · simp [State.sameHost]

theorem dataByte_sameHost {s t u : State} {b : Byte} (ht : t.sameHost s) (h : dataByte s t b = .next u) :
    u.sameHost s := by
  unfold dataByte at h
  split at h <;> cases h
  · exact (State.wroteByte_sameHost _).trans ((t.withCol_sameHost _).trans ht)
  · exact s.awaiting_sameHost _ _

theorem hexByte_sameHost {s t u : State} {b : Byte} (ht : t.sameHost s) (h : hexByte s t b = .next u) :
    u.sameHost s := by
  cases hp : t.prs.ph <;> simp only [hexByte, hp] at h
  case idle | seek => cases h
  case len | adrh | adrl =>
    cases h
    exact ht
  case type => exact (recordType_sameHost h).trans ht
  case data => exact dataByte_sameHost ht h
  case cks =>
    cases h
    exact t.checkSum_sameHost.trans ht

theorem recordChar_sameHost {s t u : State} {c : Byte} (ht : t.sameHost s) (h : recordChar s t c = .next u) :
    u.sameHost s := by
  unfold recordChar at h
  split at h
  · cases h
    exact (t.fail_sameHost _).trans ht
  · split at h
    · exact hexByte_sameHost ((t.tookPair_sameHost _).trans ht) h
    · cases h
      exact (t.firstDigit_sameHost _).trans ht

theorem parserStep_sameHost {s u : State} (h : parserStep s = .next u) : u.sameHost s := by
  by_cases hi : s.prs.ph = .idle
  · simp [parserStep, hi] at h
  by_cases hs : s.prs.ph = .seek
  · rw [parserStep_seek hs] at h
    refine consumeOrFail_sameHost (fun c t ht hc => ?_) h
    cases hc
    exact (t.seekChar_sameHost c).trans ht
  · rw [parserStep_record hs hi] at h
    exact consumeOrFail_sameHost (fun _ _ => recordChar_sameHost) h

theorem operationStep_sameHost {s u : State} (h : operationStep s = .next u) : u.sameHost s := by
  cases ho : s.op <;> simp only [operationStep, ho] at h
  case none =>
    cases h
    exact .refl s
  case frmData | frmEnd | frmAll => exact framerStep_sameHost h
  case prsLine | prsRead => exact parserStep_sameHost h

/-- No IHXC step changes the configuration, the host's registers and read data, or the agenda. -/
theorem ihxcStep_sameHost {s u : State} (h : ihxcStep s = .next u) : u.sameHost s := by
  cases hw : s.waiting with
  | none => exact operationStep_sameHost (ihxcStep_free hw ▸ h)
  | some p =>
    rw [ihxcStep_waiting hw] at h
    cases h
    exact .refl s

theorem ihxcStep_cfg {s u : State} (h : ihxcStep s = .next u) : u.cfg = s.cfg := (ihxcStep_sameHost h).1

/-! ## The moves of the host and of the platform -/

/-- Accepted or dropped, a command whose own effect keeps the configuration keeps it. -/
theorem acceptOrDrop_cfg {s u : State} {effect : State → State} (he : ∀ v, (effect v).cfg = v.cfg)
    (h : acceptOrDrop s effect = .next u) : u.cfg = s.cfg := by
  cases hb : s.status.busy
  · rw [acceptOrDrop_idle hb] at h
    cases h
    exact (he _).trans s.accepted_cfg
  · rw [acceptOrDrop_busy hb] at h
    cases h
    exact s.dropped_cfg

theorem ctrlWrite_cfg {s u : State} {w : Word} (h : ctrlWrite w s = .next u) : u.cfg = s.cfg := by
  unfold ctrlWrite at h
  split at h
  · next i _ =>
    obtain ⟨t, he, hcfg, -⟩ := exec_keeps i s
    rw [he] at h
    cases h
    exact hcfg
  · exact acceptOrDrop_cfg (effect := fun t => t.fail .illegalCmd) (fun v => v.fail_cfg _) h

theorem hostWrite_cfg {s u : State} {r : BitVec 3} {w : Word} (h : hostWrite r w s = .next u) : u.cfg = s.cfg := by
  unfold hostWrite at h
  split at h
  · exact ctrlWrite_cfg h
  · cases h
    rw [State.plainWrite_eq]

theorem platformMove_cfg {s u : State} {p : PlatformMove} (h : platformMove p s = .next u) : u.cfg = s.cfg := by
  unfold platformMove at h
  split at h <;> cases h
  exact s.withCol_cfg _

theorem makeMove_cfg {m : Move} {s u : State} (h : makeMove m s = .next u) : u.cfg = s.cfg := by
  cases m with
  | write r w => exact hostWrite_cfg h
  | read r =>
    cases h
    exact s.hostRead_cfg r
  | wait =>
    simp only [makeMove] at h
    split at h
    · exact (ihxcStep_cfg h).trans (s.withAgenda_cfg _)
    · cases h
      exact s.hostRead_cfg _
  | reset =>
    cases h
    exact s.resetAsserted_cfg
  | ihxc => exact ihxcStep_cfg h
  | platform p => exact platformMove_cfg h

/-! ## Steps and runs -/

theorem step_cfg {s u : State} (h : step s = .next u) : u.cfg = s.cfg := by
  rcases step_cases s with ⟨-, he⟩ | ⟨m, ms, -, he⟩ <;> rw [he] at h
  · exact ihxcStep_cfg h
  · exact (makeMove_cfg h).trans (s.withAgenda_cfg ms)

/-- What every step keeps holds after any run. -/
theorem run_keeps {P : State → Prop} (hstep : ∀ s t, P s → step s = .next t → P t) {n : Nat} {s t : State} (hs : P s)
    (h : run n s = .next t) : P t := by
  induction n generalizing s with
  | zero =>
    cases h
    exact hs
  | succ n ih =>
    cases hu : step s with
    | next u =>
      rw [run_succ hu] at h
      exact ih (hstep s u hs hu) h
    | fault f => simp [run, hu] at h
    | refused r => simp [run, hu] at h

/-- Settles O36: no step of any agent changes the configuration, so no run does. -/
theorem configurationNeverChanges : Obligations.ConfigurationNeverChanges := by
  intro n s t h
  exact run_keeps (P := fun u => u.cfg = s.cfg) (fun _ _ hu hv => (step_cfg hv).trans hu) rfl h

end Sys2Proof.Machine
end

section
/-! What a step of the whole machine can be (10_state.md R20, R21), said once for every agent; and with it the rules about
registers that only the host writes: CK_ACC, ADDR, LEN (10_state.md R26, R27), STATUS as read (R25), and the host's moves while
an operation runs. -/

namespace Sys2Proof.Machine

/-! ## One step, by the agent that makes it -/

/-- `t` is `s` after one move of one agent: IHXC, the host (a command dropped or accepted, a plain register write, a read, a
reset) or the platform. -/
inductive MoveOf (s : State) : State → Prop
  | ihxc {ms : List Move} {t : State} (h : ihxcStep (s.withAgenda ms) = .next t) : MoveOf s t
  | drop {w : Word} {ms : List Move} (ha : s.agenda = .write regCtrl w :: ms) (hb : s.status.busy = true) :
      MoveOf s (s.withAgenda ms).dropped
  | command {w : Word} {ms : List Move} {t : State} (ha : s.agenda = .write regCtrl w :: ms) (hb : s.status.busy = false)
      (h : ctrlWrite w (s.withAgenda ms) = .next t) : MoveOf s t
  | write {r : BitVec 3} {w : Word} {ms : List Move} (ha : s.agenda = .write r w :: ms) :
      MoveOf s ((s.withAgenda ms).plainWrite r w)
  | read {ms : List Move} (r : BitVec 3) : MoveOf s ((s.withAgenda ms).hostRead r)
  | reset {ms : List Move} (ha : s.agenda = .reset :: ms) : MoveOf s (s.withAgenda ms).resetAsserted
  | platform {p : PlatformMove} {ms : List Move} (ha : s.agenda = .platform p :: ms) (hb : s.status.busy = false) :
      MoveOf s ((s.withAgenda ms).withCol (p.apply s.col))

theorem moveOf_of_hostWrite {s t : State} {r : BitVec 3} {w : Word} {ms : List Move} (ha : s.agenda = .write r w :: ms)
    (h : hostWrite r w (s.withAgenda ms) = .next t) : MoveOf s t := by
  unfold hostWrite at h
  split at h
  · next hr =>
    subst hr
    cases hb : s.status.busy
    · exact .command ha hb h
    · rw [ctrlWrite_busy w (by simpa using hb)] at h
      cases h
      exact .drop ha hb
  · cases h
    exact .write ha

theorem moveOf_of_step {s t : State} (h : step s = .next t) : MoveOf s t := by
  rcases step_cases s with ⟨ha, he⟩ | ⟨m, ms, ha, he⟩ <;> rw [he] at h
  · have hs : s.withAgenda [] = s := by rw [← ha]; rfl
    exact .ihxc (hs.symm ▸ h)
  · cases m with
    | write r w => exact moveOf_of_hostWrite ha h
    | read r =>
      cases h
      exact .read r
    | wait =>
      simp only [makeMove] at h
      split at h
      · exact .ihxc (ms := .wait :: ms) h
      · cases h
        exact .read regStatus
    | reset =>
      cases h
      exact .reset ha
    | ihxc => exact .ihxc h
    | platform p =>
      simp only [makeMove, platformMove] at h
      split at h
      · cases h
      · next hb =>
        cases h
        exact .platform ha (by simpa using hb)

@[simp] theorem State.plainWrite_ckAcc (s : State) (r : BitVec 3) (w : Word) : (s.plainWrite r w).ckAcc = s.ckAcc := by
  rw [State.plainWrite_eq]

/-- A command leaves the argument registers and the collaborators alone, its operation's transactions still to come. -/
theorem ctrlWrite_keeps {s t : State} {w : Word} (h : ctrlWrite w s = .next t) :
    t.addr = s.addr ∧ t.len = s.len ∧ t.col = s.col := by
  cases hb : s.status.busy
  · rcases ctrlWrite_idle w hb with he | ⟨-, he⟩ | ⟨b, -, he⟩ | he | he | he | he | he | he <;> rw [he] at h <;> cases h <;>
      simp
  · rw [ctrlWrite_busy w hb] at h
    cases h
    simp

/-! ## Registers only the host writes -/

/-- Settles O34: of the moves of a step only a reset and an accepted CK_CLR or CK_ADD touch CK_ACC. -/
theorem ckAccChangesOnlyByTheCku : Obligations.CkAccChangesOnlyByTheCku := by
  intro s t h hne
  cases moveOf_of_step h with
  | ihxc hi =>
    obtain ⟨-, -, -, hck, -, -⟩ := ihxcStep_sameHost hi
    exact absurd hck hne
  | @command w ms _ ha hb hc =>
    refine .inr ⟨w, ms, ha, hb, ?_⟩
    rcases ctrlWrite_idle w (s := s.withAgenda ms) (by simpa using hb) with
      he | ⟨hd, he⟩ | ⟨b, hd, he⟩ | he | he | he | he | he | he <;> obtain rfl : _ = t := by simpa [he] using hc
    · simp at hne
    · exact .inl hd
    · exact .inr ⟨b, hd, by simp⟩
    all_goals simp at hne
  | reset ha => exact .inl ⟨_, ha⟩
  | drop | write | read | platform => simp at hne

/-- Settles O35: IHXC's step and every move but reset and the host's write to the register itself keep ADDR and LEN. -/
theorem argumentsChangeOnlyByTheHost : Obligations.ArgumentsChangeOnlyByTheHost := by
  intro s t h
  cases moveOf_of_step h with
  | ihxc hi =>
    obtain ⟨-, haddr, hlen, -⟩ := ihxcStep_sameHost hi
    exact ⟨fun hne => absurd haddr hne, fun hne => absurd hlen hne⟩
  | command _ _ hc =>
    obtain ⟨haddr, hlen, -⟩ := ctrlWrite_keeps hc
    exact ⟨fun hne => absurd haddr hne, fun hne => absurd hlen hne⟩
  | @write r w ms ha =>
    rw [State.plainWrite_eq]
    constructor <;> intro hne
    · by_cases hr : r = regAddr
      · exact .inr ⟨w, ms, hr ▸ ha⟩
      · simp [hr] at hne
    · by_cases hr : r = regLen
      · exact .inr ⟨w, ms, hr ▸ ha⟩
      · simp [hr] at hne
  | reset ha => exact ⟨fun _ => .inl ⟨_, ha⟩, fun _ => .inl ⟨_, ha⟩⟩
  | drop | read | platform => simp

/-- Settles O55: a read changes only the read data, a CTRL write is dropped, a plain write changes only ADDR or LEN. -/
theorem hostMovesLeaveTheOperationAlone : Obligations.HostMovesLeaveTheOperationAlone := by
  rintro s m ms ha hb (⟨r, rfl⟩ | ⟨r, w, rfl⟩)
  · exact ⟨(s.withAgenda ms).hostRead r, by simp [step, agendaStep, ha, makeMove], by simp⟩
  · by_cases hr : r = regCtrl
    · refine ⟨(s.withAgenda ms).dropped, ?_, by simp⟩
      simp only [step, agendaStep, ha, makeMove, hostWrite, if_pos hr]
      exact ctrlWrite_busy w hb
    · refine ⟨(s.withAgenda ms).plainWrite r w, by simp [step, agendaStep, ha, makeMove, hostWrite, hr], ?_⟩
      simp [State.plainWrite_eq]

/-! ## STATUS as the host reads it, and the state right after reset -/

theorem statusBits_flags (st : Status) (ckz : Bool) :
    (statusBits st ckz).getLsbD 0 = st.busy ∧ (statusBits st ckz).getLsbD 1 = st.done ∧
    (statusBits st ckz).getLsbD 2 = st.ok ∧ (statusBits st ckz).getLsbD 3 = st.eof ∧
    (statusBits st ckz).getLsbD 8 = st.drop ∧ (statusBits st ckz).getLsbD 9 = ckz := by
  unfold statusBits
  refine ⟨?_, ?_, ?_, ?_, ?_, ?_⟩ <;> repeat rw [BitVec.getLsbD_append]
  all_goals simp

theorem statusBits_err (st : Status) (ckz : Bool) : (statusBits st ckz).extractLsb' 4 4 = st.err.code := by
  unfold statusBits
  ext i hi
  rw [BitVec.getElem_extractLsb']
  repeat rw [BitVec.getLsbD_append]
  simp [hi]

theorem statusBits_unused (st : Status) (ckz : Bool) : (statusBits st ckz).extractLsb' 10 22 = 0 := by
  unfold statusBits
  ext i hi
  have hi4 : ¬ 6 + i < 4 := by omega
  have hi5 : 6 + i - 4 ≠ 0 := by omega
  have hi6 : 6 + i - 4 - 1 ≠ 0 := by omega
  rw [BitVec.getElem_extractLsb']
  repeat rw [BitVec.getLsbD_append]
  simp [hi4, hi5, hi6]

/-- Settles O24: each field of STATUS is one operand of the concatenation that makes the word. -/
theorem statusFields : Obligations.StatusFields := by
  refine ⟨fun s => ?_, rfl, rfl, rfl, rfl, rfl, rfl, rfl, rfl, rfl⟩
  obtain ⟨hbusy, hdone, hok, heof, hdrop, hckz⟩ := statusBits_flags s.status s.ckz
  exact ⟨hbusy, hdone, hok, heof, statusBits_err _ _, hdrop, hckz, statusBits_unused _ _⟩

/-- Settles O29: right after reset no operation runs, every counter is 0 and no cell is listed. -/
theorem resetIsCoherent : Obligations.ResetIsCoherent where
  op := ⟨rfl, rfl, rfl, rfl⟩
  status := by simp [Status.coherent, State.reset, Status.reset]
  frm := trivial
  prs := trivial
  len := by decide
  rem := by decide
  mem := Memory.wf_nil

end Sys2Proof.Machine
end

section
/-! Transactions (10_state.md R21, R33 to R37): what a record of transactions says happened to the collaborators, and that
every step of the host or of IHXC does to them exactly what the transactions it adds say. -/

namespace Sys2Proof.Machine

/-! ## What a list of transactions does to the collaborators -/

/-- From `c`, the transactions `ts` lead to `c'`: they are added to the record, and image, output and input change by them
and by nothing else. -/
structure Collab.Performs (c : Collab) (ts : List Transaction) (c' : Collab) : Prop where
  trace : c'.trace = c.trace ++ ts
  mem : c'.mem = memAfter c.mem ts
  outText : c'.outText = c.outText ++ emittedBy ts
  ahead : ∀ n, c'.ahead n = c.ahead ((consumedBy ts).length + n)
  taken : ∀ n < (consumedBy ts).length, c.ahead n = (consumedBy ts)[n]?
  inPos : c'.inPos = c.inPos + (consumedBy ts).length

theorem memAfter_append (m : Memory) (ts us : List Transaction) :
    memAfter m (ts ++ us) = memAfter (memAfter m ts) us := by
  induction ts generalizing m with
  | nil => rfl
  | cons x ts ih => cases x <;> simp [memAfter, ih]

theorem emittedBy_append (ts us : List Transaction) : emittedBy (ts ++ us) = emittedBy ts ++ emittedBy us := by
  induction ts with
  | nil => rfl
  | cons x ts ih =>
    cases x with
    | emit ch r => cases r <;> simp [emittedBy, ih]
    | memRead | memWrite | consume => simp [emittedBy, ih]

theorem consumedBy_append (ts us : List Transaction) : consumedBy (ts ++ us) = consumedBy ts ++ consumedBy us := by
  induction ts with
  | nil => rfl
  | cons x ts ih =>
    cases x with
    | consume r => cases r <;> simp [consumedBy, ih]
    | memRead | memWrite | emit => simp [consumedBy, ih]

theorem memAfter_wf {m : Memory} (h : m.wf) (ts : List Transaction) : (memAfter m ts).wf := by
  induction ts generalizing m with
  | nil => exact h
  | cons x ts ih =>
    cases x with
    | memWrite a v => exact ih (Memory.write_wf h a v)
    | memRead | emit | consume => exact ih h

@[simp] theorem Collab.Performs.nil (c : Collab) : c.Performs [] c := by
  constructor <;> simp [memAfter, emittedBy, consumedBy]

theorem Collab.Performs.append {c c' c'' : Collab} {ts us : List Transaction} (h : c.Performs ts c')
    (h' : c'.Performs us c'') : c.Performs (ts ++ us) c'' where
  trace := by simp [h'.trace, h.trace]
  mem := by rw [h'.mem, h.mem, memAfter_append]
  outText := by simp [h'.outText, h.outText, emittedBy_append]
  ahead n := by rw [h'.ahead, h.ahead, consumedBy_append, List.length_append, Nat.add_assoc]
  taken n hn := by
    rw [consumedBy_append] at hn ⊢
    by_cases hlt : n < (consumedBy ts).length
    · rw [h.taken n hlt, List.getElem?_append_left hlt]
    · have hle : (consumedBy ts).length ≤ n := by omega
      rw [List.length_append] at hn
      rw [List.getElem?_append_right hle, ← h'.taken _ (by omega), h.ahead, Nat.add_sub_cancel' hle]
  inPos := by simp [h'.inPos, h.inPos, consumedBy_append, Nat.add_assoc]

/-! Of the answers a port can give only a character from IN moves the characters ahead. -/

@[simp] theorem Collab.ahead_emitted (c : Collab) (ch : Byte) (ds : List Draw) (n : Nat) :
    (c.emitted ch ds).ahead n = c.ahead n := rfl
@[simp] theorem Collab.ahead_emitFaulted (c : Collab) (ch : Byte) (ds : List Draw) (n : Nat) :
    (c.emitFaulted ch ds).ahead n = c.ahead n := rfl
@[simp] theorem Collab.ahead_tookNone (c : Collab) (r : InAnswer) (ds : List Draw) (n : Nat) :
    (c.tookNone r ds).ahead n = c.ahead n := rfl
@[simp] theorem Collab.ahead_wasRead (c : Collab) (a : Addr) (ds : List MemDraw) (n : Nat) :
    (c.wasRead a ds).ahead n = c.ahead n := rfl
@[simp] theorem Collab.ahead_wasWritten (c : Collab) (a : Addr) (v : Byte) (ds : List MemDraw) (n : Nat) :
    (c.wasWritten a v ds).ahead n = c.ahead n := rfl

theorem Collab.performs_emitted (c : Collab) (ch : Byte) (ds : List Draw) : c.Performs [.emit ch .ok] (c.emitted ch ds) := by
  constructor <;> simp [memAfter, emittedBy, consumedBy]

theorem Collab.performs_emitFaulted (c : Collab) (ch : Byte) (ds : List Draw) :
    c.Performs [.emit ch .fault] (c.emitFaulted ch ds) := by
  constructor <;> simp [memAfter, emittedBy, consumedBy]

theorem Collab.performs_wasRead (c : Collab) (a : Addr) (ds : List MemDraw) :
    c.Performs [.memRead a (c.mem.read a)] (c.wasRead a ds) := by
  constructor <;> simp [memAfter, emittedBy, consumedBy]

theorem Collab.performs_wasWritten (c : Collab) (a : Addr) (v : Byte) (ds : List MemDraw) :
    c.Performs [.memWrite a v] (c.wasWritten a v ds) := by
  constructor <;> simp [memAfter, emittedBy, consumedBy]

/-- `End` and `Fault` give no character, so nothing ahead moves. -/
theorem Collab.performs_tookNone (c : Collab) {r : InAnswer} (hr : ∀ ch, r ≠ .chr ch) (ds : List Draw) :
    c.Performs [.consume r] (c.tookNone r ds) := by
  cases r with
  | chr ch => exact absurd rfl (hr ch)
  | eoi | fault => constructor <;> simp [memAfter, emittedBy, consumedBy]

theorem Collab.performs_took {c : Collab} {ch : Byte} {rest : List Byte} (h : c.upcoming = ch :: rest) (ds : List Draw) :
    c.Performs [.consume (.chr ch)] (c.took ch rest ds) := by
  constructor <;> simp [memAfter, emittedBy, consumedBy]
  · exact fun n => (Collab.ahead_took h ds n).trans (by rw [Nat.add_comm])
  · exact Collab.ahead_zero h

/-! ## The framer's step -/

@[simp] theorem State.closeLine_col (s : State) : s.closeLine.col = s.col := by
  unfold State.closeLine
  dsimp only
  split
  · split <;> rfl
  · rfl

@[simp] theorem State.nextLiteral_col (s : State) : s.nextLiteral.col = s.col := by
  unfold State.nextLiteral
  split <;> rfl

/-- `EmitOrFail` performs its Emit, or none where the sink never answers. -/
theorem emitOrFail_performs {s t u : State} {ch : Byte} {k : State → State} (hk : ∀ v, (k v).col = v.col)
    (h : emitOrFail s t ch k = .next u) : t.col.Performs [] u.col ∨ ∃ r, t.col.Performs [.emit ch r] u.col := by
  rcases emitOrFail_cases s t ch k with ⟨-, he⟩ | ⟨-, ds, -, he⟩ | ⟨-, ds, -, he⟩ | ⟨-, ds, -, he⟩ <;> rw [he] at h <;>
    cases h
  · rw [hk]
    exact .inr ⟨_, t.col.performs_emitted ch ds⟩
  · exact .inr ⟨_, t.col.performs_emitFaulted ch ds⟩
  · exact .inl (.nil _)

/-- The transactions of one framer step: none, a MemRead, an Emit, or a MemRead and then its Emit (41_framer.md R125). -/
def framerTransactions (ts : List Transaction) : Prop :=
  ts = [] ∨ (∃ a v, ts = [.memRead a v]) ∨ (∃ ch r, ts = [.emit ch r]) ∨ ∃ a v ch r, ts = [.memRead a v, .emit ch r]

theorem emitOrFail_framerTransactions {s u : State} {t : State} {ch : Byte} {k : State → State} (ht : t.col = s.col)
    (hk : ∀ v, (k v).col = v.col) (h : emitOrFail s t ch k = .next u) :
    ∃ ts, framerTransactions ts ∧ s.col.Performs ts u.col := by
  rcases emitOrFail_performs hk h with hp | ⟨r, hp⟩ <;> rw [ht] at hp
  · exact ⟨_, .inl rfl, hp⟩
  · exact ⟨_, .inr (.inr (.inl ⟨ch, r, rfl⟩)), hp⟩

theorem framerStep_performs {s u : State} (h : framerStep s = .next u) :
    ∃ ts, framerTransactions ts ∧ s.col.Performs ts u.col := by
  rcases framerStep_cases s with ⟨he, -⟩ | ⟨-, -, -, -, he⟩ | ⟨-, -, -, -, he⟩ | ⟨-, -, -, -, he⟩ |
    ⟨-, -, -, -, -, he⟩ | ⟨-, -, -, -, -, ⟨-, he⟩ | ⟨-, ds, -, he⟩ | ⟨-, ds, -, he⟩⟩ | ⟨-, -, -, -, he⟩ |
    ⟨-, -, ch, -, he⟩ <;> rw [he] at h
  · cases h
  · cases h
    exact ⟨[], .inl rfl, .nil _⟩
  · exact emitOrFail_framerTransactions (s.frameLiteral_col _) State.nextLiteral_col h
  · exact emitOrFail_framerTransactions s.openLine_col State.nextPos_col h
  · exact emitOrFail_framerTransactions rfl State.nextPos_col h
  · cases h
  · cases h
    exact ⟨[], .inl rfl, .nil _⟩
  · have hread := s.col.performs_wasRead (dataByteAddr s.frm) ds
    rcases emitOrFail_performs State.nextPos_col h with hp | ⟨r, hp⟩
    · exact ⟨_, .inr (.inl ⟨_, _, rfl⟩), hread.append hp⟩
    · exact ⟨_, .inr (.inr (.inr ⟨_, _, _, r, rfl⟩)), hread.append hp⟩
  · exact emitOrFail_framerTransactions rfl State.closeLine_col h
  · exact emitOrFail_framerTransactions rfl State.nextLiteral_col h

/-! ## The parser's step -/

@[simp] theorem State.seekChar_col (s : State) (c : Byte) : (s.seekChar c).col = s.col := by
  unfold State.seekChar
  split
  · rfl
  · split <;> rfl

@[simp] theorem State.recordDone_col (s : State) : s.recordDone.col = s.col := by
  unfold State.recordDone
  split
  · rfl
  · split <;> rfl

@[simp] theorem State.checkSum_col (s : State) : s.checkSum.col = s.col := by
  unfold State.checkSum
  split
  · simp
  · rfl

theorem recordType_col {s u : State} {b : Byte} (h : recordType s b = .next u) : u.col = s.col := by
  rw [recordType_eq] at h
  split at h <;> cases h <;> rfl

/-- A data byte performs its MemWrite, or none where MEM never answers. -/
theorem dataByte_performs {s t u : State} {b : Byte} (h : dataByte s t b = .next u) :
    t.col.Performs [] u.col ∨ ∃ a v, t.col.Performs [.memWrite a v] u.col := by
  unfold dataByte at h
  rcases t.col.memWrite_cases t.prs.addr b with ⟨-, he⟩ | ⟨-, ds, -, he⟩ | ⟨-, ds, -, he⟩ <;> rw [he] at h <;> cases h
  · exact .inr ⟨_, _, t.col.performs_wasWritten t.prs.addr b ds⟩
  · exact .inl (.nil _)

/-- After its Consume a parser step performs at most a MemWrite. -/
theorem recordChar_performs {s t u : State} {c : Byte} (h : recordChar s t c = .next u) :
    t.col.Performs [] u.col ∨ ∃ a v, t.col.Performs [.memWrite a v] u.col := by
  unfold recordChar at h
  split at h
  · cases h
    exact .inl (.nil _)
  · next d _ =>
    split at h
    · cases hp : t.prs.ph <;> simp only [hexByte, State.tookPair_prs, hp] at h
      case idle | seek => cases h
      case len | adrh | adrl =>
        cases h
        exact .inl (.nil _)
      case type =>
        rw [recordType_col h]
        exact .inl (.nil _)
      case data => exact dataByte_performs (t := t.tookPair (pairByte t.prs.hi d)) h
      case cks =>
        cases h
        exact .inl (by simp)
    · cases h
      exact .inl (.nil _)

/-- The transactions of one parser step: none, a Consume, or a Consume and then a MemWrite (42_parser.md R158, R165). -/
def parserTransactions (ts : List Transaction) : Prop :=
  ts = [] ∨ (∃ r, ts = [.consume r]) ∨ ∃ r a v, ts = [.consume r, .memWrite a v]

theorem consumeOrFail_performs {s u : State} {k : Byte → State → Host.Outcome State Fault Refusal}
    (hk : ∀ c t, k c t = .next u → t.col.Performs [] u.col ∨ ∃ a v, t.col.Performs [.memWrite a v] u.col)
    (h : consumeOrFail s k = .next u) : ∃ ts, parserTransactions ts ∧ s.col.Performs ts u.col := by
  rcases consumeOrFail_cases s k with ⟨-, he⟩ | ⟨-, ds, ch, rest, -, hup, he⟩ | ⟨-, ds, -, -, he⟩ | ⟨-, ds, -, he⟩ |
    ⟨-, ds, -, he⟩ <;> rw [he] at h
  · cases h
  · have htook := Collab.performs_took hup ds
    rcases hk _ _ h with hp | ⟨a, v, hp⟩
    · exact ⟨_, .inr (.inl ⟨_, rfl⟩), htook.append hp⟩
    · exact ⟨_, .inr (.inr ⟨_, a, v, rfl⟩), htook.append hp⟩
  · cases h
    exact ⟨_, .inr (.inl ⟨_, rfl⟩), s.col.performs_tookNone (by simp) ds⟩
  · cases h
    exact ⟨_, .inr (.inl ⟨_, rfl⟩), s.col.performs_tookNone (by simp) ds⟩
  · cases h
    exact ⟨[], .inl rfl, .nil _⟩

theorem parserStep_performs {s u : State} (h : parserStep s = .next u) :
    ∃ ts, parserTransactions ts ∧ s.col.Performs ts u.col := by
  by_cases hi : s.prs.ph = .idle
  · simp [parserStep, hi] at h
  by_cases hs : s.prs.ph = .seek
  · rw [parserStep_seek hs] at h
    refine consumeOrFail_performs (fun c t hc => ?_) h
    cases hc
    exact .inl (by simp)
  · rw [parserStep_record hs hi] at h
    exact consumeOrFail_performs (fun _ _ => recordChar_performs) h

/-! ## Every step -/

theorem framerTransactions.oneStep {ts : List Transaction} (h : framerTransactions ts) :
    oneStepTransactions ts ∧ ts.all Transaction.isFramer = true := by
  rcases h with rfl | ⟨a, v, rfl⟩ | ⟨ch, r, rfl⟩ | ⟨a, v, ch, r, rfl⟩ <;>
    simp [oneStepTransactions, Transaction.isFramer]

theorem parserTransactions.oneStep {ts : List Transaction} (h : parserTransactions ts) :
    oneStepTransactions ts ∧ ts.all Transaction.isParser = true := by
  rcases h with rfl | ⟨r, rfl⟩ | ⟨r, a, v, rfl⟩ <;> simp [oneStepTransactions, Transaction.isParser]

/-- The transactions `ts` are those one step of an operation `o` may perform: the framer's or the parser's, none with no
operation. -/
def Op.mayPerform (o : Op) (ts : List Transaction) : Prop :=
  oneStepTransactions ts ∧ (o.isFramer = true → ts.all Transaction.isFramer = true) ∧
    (o.isParser = true → ts.all Transaction.isParser = true) ∧ (o = .none → ts = [])

@[simp] theorem Op.mayPerform_nil (o : Op) : o.mayPerform [] := by simp [Op.mayPerform, oneStepTransactions]

theorem ihxcStep_performs {s u : State} (h : ihxcStep s = .next u) :
    ∃ ts, s.op.mayPerform ts ∧ s.col.Performs ts u.col := by
  cases hw : s.waiting with
  | some p =>
    rw [ihxcStep_waiting hw] at h
    cases h
    exact ⟨[], by simp⟩
  | none =>
    rw [ihxcStep_free hw] at h
    cases ho : s.op <;> simp only [operationStep, ho] at h
    case none =>
      cases h
      exact ⟨[], by simp⟩
    case frmData | frmEnd | frmAll =>
      obtain ⟨ts, hts, hp⟩ := framerStep_performs h
      exact ⟨ts, ⟨hts.oneStep.1, fun _ => hts.oneStep.2, nofun, nofun⟩, hp⟩
    case prsLine | prsRead =>
      obtain ⟨ts, hts, hp⟩ := parserStep_performs h
      exact ⟨ts, ⟨hts.oneStep.1, nofun, fun _ => hts.oneStep.2, nofun⟩, hp⟩

@[simp] theorem State.plainWrite_col (s : State) (r : BitVec 3) (w : Word) : (s.plainWrite r w).col = s.col := by
  rw [State.plainWrite_eq]

theorem step_performs {s t : State} (h : step s = .next t) (hp : ∀ p ms, s.agenda ≠ .platform p :: ms) :
    ∃ ts, s.op.mayPerform ts ∧ s.col.Performs ts t.col := by
  cases moveOf_of_step h with
  | @ihxc ms _ hi => exact ihxcStep_performs (s := s.withAgenda ms) hi
  | command _ _ hc =>
    obtain ⟨-, -, hcol⟩ := ctrlWrite_keeps hc
    exact ⟨[], by simp [hcol]⟩
  | drop | write | read | reset => exact ⟨[], by simp⟩
  | platform ha => exact absurd ha (hp _ _)

/-- Settles O33: an IHXC step performs what it adds to the record, and every move of the host adds nothing. -/
theorem stepTransactions : Obligations.StepTransactions := by
  intro s t h hp
  obtain ⟨ts, ⟨hone, hfrm, hprs, hidle⟩, hc⟩ := step_performs h hp
  exact ⟨ts, hc.trace, hone, hc.mem, hc.outText, hc.ahead, hc.taken, hc.inPos, hfrm, hprs, hidle⟩

end Sys2Proof.Machine
end

section
/-! Coherent control (10_state.md R25, R28 to R31). `Progress` says once what an IHXC step may do to OP, STATUS and the units:
wait, advance one unit, or complete the command. From it follow the flags of a running operation (R31, 43_control.md R196) and,
with the moves of the host and of the platform, that every step keeps the invariant; the invariant excludes the model's one
fault. -/

namespace Sys2Proof.Machine

/-! ## What an IHXC step may do -/

/-- The framer goes on with its command: the counters stay in range, no byte is added to what is left, and the phase changes
only from LINE to EOFLIT in FRM_ALL (41_framer.md R122 to R125). -/
structure Framer.Advances (f f' : Framer) : Prop where
  active : f.ph ≠ .idle
  mode : f'.mode = f.mode
  phase : f'.ph = f.ph ∨ (f.mode = .all ∧ f'.ph = .eoflit)
  rem : f'.rem.toNat ≤ f.rem.toNat
  range : f.inRange → f'.inRange

/-- The parser goes on with its command (42_parser.md R165). -/
structure Parser.Advances (p p' : Parser) : Prop where
  active : p.ph ≠ .idle
  mode : p'.mode = p.mode
  active' : p'.ph ≠ .idle
  range : p.inRange → p'.inRange

/-- What a step of a running operation does to all but the collaborators: the operation waits at a port, or its unit goes on,
or the command completes, with success or with a failure kind of an operation (43_control.md R196, 60_exceptions.md R204). -/
inductive Progress (s : State) : State → Prop
  | waits (c : Collab) (p : Port) : Progress s (s.awaiting c p)
  | frames {f : Framer} (c : Collab) (h : s.frm.Advances f) : Progress s { s with frm := f, col := c }
  | parses {p : Parser} (c : Collab) (h : s.prs.Advances p) : Progress s { s with prs := p, col := c }
  | succeeds {f : Framer} (p : Parser) (c : Collab) (eof : Bool) (h : f.rem.toNat ≤ s.frm.rem.toNat) :
      Progress s (State.complete { s with frm := f, prs := p, col := c } true eof .none)
  | fails {f : Framer} {k : FailKind} (p : Parser) (c : Collab) (hk : k ≠ .none ∧ k ≠ .illegalCmd)
      (h : f.rem.toNat ≤ s.frm.rem.toNat) : Progress s (State.fail { s with frm := f, prs := p, col := c } k)

/-! ## The framer -/

theorem chunkLen_toNat (rem : Word) : (chunkLen rem).toNat = min 16 rem.toNat := by
  simp only [chunkLen, BitVec.toNat_ofNat]
  omega

theorem openLine_rem_toNat (s : State) : s.openLine.frm.rem.toNat = s.frm.rem.toNat - min 16 s.frm.rem.toNat := by
  have hk : ((chunkLen s.frm.rem).zeroExtend 32).toNat = min 16 s.frm.rem.toNat := by
    simp only [BitVec.toNat_setWidth, chunkLen_toNat]
    omega
  simp only [State.openLine_frm]
  rw [BitVec.toNat_sub_of_le (by rw [BitVec.le_def, hk]; omega), hk]

/-- Where F_POS stands in a line, it can count one character further up to the NEWLINE (41_framer.md R125). -/
theorem Framer.Advances.nextPos {f f' : Framer} (hph : f.ph = .line) (h0 : f.pos ≠ 0)
    (hlt : f.pos.toNat < 11 + 2 * f.k.toNat)
    (hf : f'.mode = f.mode ∧ f'.ph = f.ph ∧ f'.rem = f.rem ∧ f'.k = f.k ∧ f'.pos = f.pos + 1) : f.Advances f' := by
  obtain ⟨hm, hp, hr, hk, hpos⟩ := hf
  refine ⟨by simp [hph], hm, .inl hp, by rw [hr], fun hin => ?_⟩
  simp only [Framer.inRange, hp, hph, hk] at hin ⊢
  obtain ⟨hk1, hk16, -⟩ := hin.resolve_left h0
  refine .inr ⟨hk1, hk16, ?_⟩
  rw [hpos]
  bv_omega

theorem Progress.openLine {s : State} (c : Collab) (hph : s.frm.ph = .line) (hr : s.frm.rem ≠ 0) (h0 : s.frm.pos = 0) :
    Progress s (s.openLine.withCol c).nextPos := by
  refine .frames c ⟨by simp [hph], rfl, .inl rfl, ?_, fun _ => ?_⟩
  · have := openLine_rem_toNat s
    simp at this ⊢
    omega
  · have hr' : s.frm.rem.toNat ≠ 0 := fun h => hr (BitVec.eq_of_toNat_eq (by simpa using h))
    have hk := chunkLen_toNat s.frm.rem
    simp [Framer.inRange, hph, h0]
    omega

theorem Progress.closeLine {s : State} (c : Collab) (hph : s.frm.ph = .line) (hm : s.frm.mode ≠ .fin) :
    Progress s (s.withCol c).closeLine := by
  unfold State.closeLine
  dsimp only
  split
  · split
    · exact .succeeds s.prs c false le_rfl
    · next hd =>
      have ha : s.frm.mode = .all := by cases h : s.frm.mode <;> simp_all
      exact .frames c ⟨by simp [hph], ha.symm, .inr ⟨ha, rfl⟩, le_rfl, fun _ => by simp [Framer.inRange]⟩
  · exact .frames c ⟨by simp [hph], rfl, .inl rfl, le_rfl, fun _ => by simp [Framer.inRange, hph]⟩

theorem Progress.nextLiteral {s : State} (c : Collab) (hph : s.frm.ph = .eoflit) (hp : s.frm.pos.toNat ≤ 10) :
    Progress s (s.withCol c).nextLiteral := by
  unfold State.nextLiteral
  split
  · exact .succeeds s.prs c false le_rfl
  · next hne =>
    refine .frames c ⟨by simp [hph], rfl, .inl rfl, le_rfl, fun _ => ?_⟩
    have : s.frm.pos.toNat ≠ 10 := fun h => hne (BitVec.eq_of_toNat_eq h)
    simp [Framer.inRange, hph]
    omega

/-- With LEN = 0, FRM_ALL emits the literal's first character (41_framer.md R124). -/
theorem Progress.emptyLiteral {s : State} (c : Collab) (hph : s.frm.ph = .line) (hm : s.frm.mode = .all) :
    Progress s ((s.frameLiteral .all).withCol c).nextLiteral :=
  .frames c ⟨by simp [hph], hm.symm, .inr ⟨hm, rfl⟩, le_rfl, fun _ => by simp [Framer.inRange]⟩

/-- `t` is the state after the step's register updates: only the framer and the collaborators differ. -/
theorem emitOrFail_progress {s u : State} {f : Framer} {c₀ : Collab} {ch : Byte} {k : State → State}
    (hrem : f.rem.toNat ≤ s.frm.rem.toNat)
    (hk : ∀ c, Progress s (k (State.withCol { s with frm := f, col := c₀ } c)))
    (h : emitOrFail s { s with frm := f, col := c₀ } ch k = .next u) : Progress s u := by
  rcases emitOrFail_cases s { s with frm := f, col := c₀ } ch k with ⟨-, he⟩ | ⟨-, ds, -, he⟩ | ⟨-, ds, -, he⟩ |
    ⟨-, ds, -, he⟩ <;> rw [he] at h <;> cases h
  · exact hk _
  · exact .fails s.prs _ (by simp) hrem
  · exact .waits _ _

theorem framerStep_progress {s u : State} (h : framerStep s = .next u) : Progress s u := by
  rcases framerStep_cases s with ⟨he, -⟩ | ⟨-, -, -, -, he⟩ | ⟨hph, hm, -, -, he⟩ | ⟨hph, -, h0, hr, he⟩ |
    ⟨hph, -, h0, -, hlt, he⟩ | ⟨hph, -, h0, -, hlt, ⟨-, he⟩ | ⟨-, ds, -, he⟩ | ⟨-, ds, -, he⟩⟩ | ⟨hph, hm, -, -, he⟩ |
    ⟨hph, hp, ch, -, he⟩ <;> rw [he] at h
  · cases h
  · cases h
    exact .succeeds s.prs s.col false le_rfl
  · exact emitOrFail_progress (f := (s.frameLiteral .all).frm) le_rfl (fun c => .emptyLiteral c hph hm) h
  · have hrem : s.openLine.frm.rem.toNat ≤ s.frm.rem.toNat := by rw [openLine_rem_toNat]; omega
    exact emitOrFail_progress hrem (fun c => .openLine c hph hr h0) h
  · exact emitOrFail_progress (f := s.frm) le_rfl (fun c => .frames c (.nextPos hph h0 hlt (by simp))) h
  · cases h
  · cases h
    exact .waits _ _
  · exact emitOrFail_progress (f := (s.readByte (dataByteAddr s.frm) ds).frm) le_rfl
      (fun c => .frames c (.nextPos hph h0 (by omega) (by simp [State.readByte]))) h
  · exact emitOrFail_progress (f := s.frm) le_rfl (fun c => .closeLine c hph hm) h
  · exact emitOrFail_progress (f := s.frm) le_rfl (fun c => .nextLiteral c hph hp) h

/-! ## The parser -/

theorem Progress.seekChar {s : State} (c : Collab) (ch : Byte) (hph : s.prs.ph = .seek) :
    Progress s ((s.withCol c).seekChar ch) := by
  have hact : s.prs.ph ≠ .idle := by simp [hph]
  unfold State.seekChar
  split
  · exact .parses c ⟨hact, rfl, hact, id⟩
  · split
    · exact .parses c ⟨hact, rfl, by simp, fun _ => trivial⟩
    · exact .fails s.prs c (by simp) le_rfl

/-- Inside a payload the phase is DATA while bytes are left and then CKS (42_parser.md R157, R158). -/
theorem Parser.inRange_payload {p : Parser} (hph : p.ph = if p.cnt = 0 then .cks else .data)
    (hle : p.cnt.toNat ≤ p.len.toNat) (ht : p.type = 0 ∨ p.type = 1) : p.inRange := by
  by_cases h0 : p.cnt = 0
  · rw [if_pos h0] at hph
    simp only [Parser.inRange, hph]
    exact ⟨h0, ht⟩
  · rw [if_neg h0] at hph
    simp only [Parser.inRange, hph]
    exact ⟨h0, hle, ht⟩

/-- The record's header is complete: P_CNT still holds LL (42_parser.md R157). -/
theorem recordType_progress {s u : State} {p : Parser} {c : Collab} {b : Byte} (hph : s.prs.ph = .type)
    (hp : p.mode = s.prs.mode ∧ p.cnt = s.prs.cnt ∧ p.len = s.prs.len)
    (h : recordType { s with prs := p, col := c } b = .next u) : Progress s u := by
  obtain ⟨hmode, hcnt, hlen⟩ := hp
  rw [recordType_eq] at h
  split at h <;> cases h
  · next hb =>
    refine .parses c ⟨by simp [hph], hmode, by dsimp only; split <;> simp, fun hin => ?_⟩
    simp only [Parser.inRange, hph, ← hcnt, ← hlen] at hin
    exact Parser.inRange_payload rfl (by simp [hin]) hb
  · exact .fails _ c (by simp) le_rfl

/-- A byte is written while P_CNT counts at least one (42_parser.md R158). -/
theorem dataByte_progress {s u : State} {p : Parser} {c : Collab} {b : Byte} (hph : s.prs.ph = .data)
    (hp : p.mode = s.prs.mode ∧ p.cnt = s.prs.cnt ∧ p.len = s.prs.len ∧ p.type = s.prs.type)
    (h : dataByte s { s with prs := p, col := c } b = .next u) : Progress s u := by
  obtain ⟨hmode, hcnt, hlen, htype⟩ := hp
  unfold dataByte at h
  split at h <;> cases h
  · refine .parses _ ⟨by simp [hph], hmode, by dsimp only; split <;> simp, fun hin => ?_⟩
    simp only [Parser.inRange, hph, ← hcnt, ← hlen, ← htype] at hin
    obtain ⟨h0, hle, ht⟩ := hin
    have hlast : p.cnt - 1 = 0 ↔ p.cnt = 1 := by bv_omega
    have hle' : (p.cnt - 1).toNat ≤ p.len.toNat := by bv_omega
    exact Parser.inRange_payload (if_congr hlast.symm rfl rfl) hle' ht
  · exact .waits _ _

theorem Progress.checkSum {s : State} {p : Parser} (c : Collab) (hph : s.prs.ph = .cks) (hmode : p.mode = s.prs.mode) :
    Progress s (State.checkSum { s with prs := p, col := c }) := by
  unfold State.checkSum
  split
  · unfold State.recordDone
    split
    · exact .succeeds p c _ le_rfl
    · split
      · exact .succeeds p c _ le_rfl
      · exact .parses c ⟨by simp [hph], hmode, by simp, fun _ => trivial⟩
  · exact .fails p c (by simp) le_rfl

theorem hexByte_progress {s u : State} {c : Collab} {b b' : Byte}
    (h : hexByte s ((s.withCol c).tookPair b') b = .next u) : Progress s u := by
  cases hph : s.prs.ph <;> simp only [hexByte, State.tookPair_prs, State.withCol_prs, hph] at h
  case idle | seek => cases h
  case len =>
    cases h
    exact .parses c ⟨by simp [hph], rfl, by simp, fun _ => rfl⟩
  case adrh | adrl =>
    cases h
    exact .parses c ⟨by simp [hph], rfl, by simp, fun hin => by simpa [Parser.inRange, hph] using hin⟩
  case type => exact recordType_progress hph (by simp) h
  case data => exact dataByte_progress hph (by simp) h
  case cks =>
    cases h
    exact .checkSum c hph rfl

theorem recordChar_progress {s u : State} {c : Collab} {ch : Byte} (hact : s.prs.ph ≠ .idle)
    (h : recordChar s (s.withCol c) ch = .next u) : Progress s u := by
  unfold recordChar at h
  split at h
  · cases h
    exact .fails s.prs c (by simp) le_rfl
  · split at h
    · exact hexByte_progress h
    · cases h
      exact .parses c ⟨hact, rfl, hact, id⟩

theorem consumeOrFail_progress {s u : State} {k : Byte → State → Host.Outcome State Fault Refusal}
    (hk : ∀ ch c, k ch (s.withCol c) = .next u → Progress s u) (h : consumeOrFail s k = .next u) : Progress s u := by
  rcases consumeOrFail_cases s k with ⟨-, he⟩ | ⟨-, ds, ch, rest, -, -, he⟩ | ⟨-, ds, -, -, he⟩ | ⟨-, ds, -, he⟩ |
    ⟨-, ds, -, he⟩ <;> rw [he] at h
  · cases h
  · exact hk _ _ h
  · cases h
    exact .fails s.prs _ (by simp) le_rfl
  · cases h
    exact .fails s.prs _ (by simp) le_rfl
  · cases h
    exact .waits _ _

theorem parserStep_progress {s u : State} (h : parserStep s = .next u) : Progress s u := by
  by_cases hi : s.prs.ph = .idle
  · simp [parserStep, hi] at h
  by_cases hs : s.prs.ph = .seek
  · rw [parserStep_seek hs] at h
    refine consumeOrFail_progress (fun ch c hc => ?_) h
    cases hc
    exact .seekChar c ch hs
  · rw [parserStep_record hs hi] at h
    exact consumeOrFail_progress (fun _ _ => recordChar_progress hi) h

/-- An IHXC step with no operation, or while a port does not answer, does nothing; any other is a `Progress`. -/
theorem ihxcStep_progress {s u : State} (h : ihxcStep s = .next u) : u = s ∨ (s.op ≠ .none ∧ Progress s u) := by
  cases hw : s.waiting with
  | some p =>
    rw [ihxcStep_waiting hw] at h
    cases h
    exact .inl rfl
  | none =>
    rw [ihxcStep_free hw] at h
    cases ho : s.op <;> simp only [operationStep, ho] at h
    case none =>
      cases h
      exact .inl rfl
    case frmData | frmEnd | frmAll => exact .inr ⟨nofun, framerStep_progress h⟩
    case prsLine | prsRead => exact .inr ⟨nofun, parserStep_progress h⟩

/-! ## The flags of a running operation -/

theorem Progress.flags {s u : State} (h : Progress s u) :
    (u.op = s.op ∧ u.status = s.status) ∨ u.status.busy = false := by
  cases h with
  | waits | frames | parses => exact .inl ⟨rfl, rfl⟩
  | succeeds | fails => exact .inr rfl

/-- Settles O37: IHXC's step leaves OP and STATUS alone until it completes the command; of the host's moves only a CTRL
write, dropped while BUSY = 1, touches STATUS, and a reset ends the operation. -/
theorem flagsHoldWhileBusy : Obligations.FlagsHoldWhileBusy := by
  intro s t _ h hb hb'
  cases moveOf_of_step h with
  | @ihxc ms _ hi =>
    have hflags : t.op = s.op ∧ t.status = s.status := by
      rcases ihxcStep_progress hi with rfl | ⟨-, hp⟩
      · exact ⟨rfl, rfl⟩
      · exact hp.flags.resolve_right (by simp [hb'])
    simp [hflags]
  | drop ha => exact ⟨rfl, rfl, fun _ => ⟨rfl, _, _, ha⟩⟩
  | command _ hidle => simp [hidle] at hb
  | write | read => simp [State.plainWrite_eq]
  | reset => simp [Status.reset] at hb'
  | platform => simp

end Sys2Proof.Machine
end

section
/-! The invariant `State.Inv`: IHXC's step keeps it by `Progress`, an accepted command and the moves of host and platform by
their own effect; and in a state that has it no step faults. -/

namespace Sys2Proof.Machine

/-! ## Completion and acceptance -/

/-- A completion's result fields agree when OK is set exactly without a failure and EOF only with OK (10_state.md R25). -/
theorem Status.completed_coherent (st : Status) {ok eof : Bool} {err : FailKind} (hok : ok = true ↔ err = .none)
    (heof : eof = true → ok = true) : (st.completed ok eof err).coherent := by
  refine ⟨nofun, ?_, fun _ => rfl, heof⟩
  simpa using hok

/-- A completed command leaves a coherent machine whatever it was doing: both units are idle. -/
theorem State.complete_inv {s : State} {ok eof : Bool} {err : FailKind} (hlen : s.len.toNat < 2 ^ s.cfg.lenBits)
    (hrem : s.frm.rem.toNat < 2 ^ s.cfg.lenBits) (hmem : s.col.mem.wf) (hok : ok = true ↔ err = .none)
    (heof : eof = true → ok = true) : (s.complete ok eof err).Inv where
  op := ⟨rfl, rfl, rfl, rfl⟩
  status := Status.completed_coherent _ hok heof
  frm := trivial
  prs := trivial
  len := hlen
  rem := hrem
  mem := hmem

theorem State.Inv.idle {s : State} (hs : s.Inv) (hb : s.status.busy = false) : s.idle := by
  have hop := hs.op
  unfold State.opCoherent at hop
  cases ho : s.op <;> simp only [ho, hb, Bool.false_eq_true, false_and] at hop
  obtain ⟨-, hw, hf, hp⟩ := hop
  exact ⟨hb, ho, hw, hf, hp⟩

theorem Status.cleared_coherent : Status.cleared.coherent := by simp [Status.coherent, Status.cleared]

theorem Status.begun_coherent : ({ Status.cleared with busy := true } : Status).coherent := by
  simp [Status.coherent, Status.cleared]

theorem lenField_lt (cfg : Config) (w : Word) : (lenField cfg w).toNat < 2 ^ cfg.lenBits := by
  rw [lenField, BitVec.toNat_ofNat]
  exact (Nat.mod_le _ _).trans_lt (Nat.mod_lt _ (by simp))

theorem ctrlWrite_inv {s t : State} {w : Word} (hs : s.Inv) (hb : s.status.busy = false) (h : ctrlWrite w s = .next t) :
    t.Inv := by
  obtain ⟨-, -, -, hf, hp⟩ := hs.idle hb
  rcases ctrlWrite_idle w hb with he | ⟨-, he⟩ | ⟨b, -, he⟩ | he | he | he | he | he | he <;> rw [he] at h <;> cases h
  · exact State.complete_inv hs.len hs.rem hs.mem (by simp) (by simp)
  · exact State.complete_inv hs.len hs.rem hs.mem (by simp) (by simp)
  · exact State.complete_inv hs.len hs.rem hs.mem (by simp) (by simp)
  · exact ⟨⟨rfl, rfl, rfl, hp⟩, Status.begun_coherent, .inl rfl, hs.prs, hs.len, lenField_lt _ _, hs.mem⟩
  · exact ⟨⟨rfl, rfl, rfl, hp⟩, Status.begun_coherent, Nat.zero_le _, hs.prs, hs.len, hs.rem, hs.mem⟩
  · exact ⟨⟨rfl, nofun, rfl, hp⟩, Status.begun_coherent, .inl rfl, hs.prs, hs.len, lenField_lt _ _, hs.mem⟩
  · exact ⟨⟨rfl, hf, rfl, nofun⟩, Status.begun_coherent, hs.frm, trivial, hs.len, hs.rem, hs.mem⟩
  · exact ⟨⟨rfl, hf, rfl, nofun⟩, Status.begun_coherent, hs.frm, trivial, hs.len, hs.rem, hs.mem⟩
  · exact State.complete_inv hs.len hs.rem hs.mem (by simp) (by simp)

/-! ## IHXC's step -/

/-- OP still agrees with the units when the framer has gone on. -/
theorem State.opCoherent_frames {s : State} {f : Framer} (c : Collab) (hs : s.opCoherent) (h : s.frm.Advances f) :
    State.opCoherent { s with frm := f, col := c } := by
  obtain ⟨hact, hmode, hphase, -, -⟩ := h
  unfold State.opCoherent at hs ⊢
  cases ho : s.op <;> simp only [ho] at hs ⊢
  case none | prsLine | prsRead => simp_all
  case frmData | frmEnd =>
    obtain ⟨hb, hf, hm, hp⟩ := hs
    exact ⟨hb, by simpa [hm, hf] using hphase, hmode.trans hm, hp⟩
  case frmAll =>
    obtain ⟨hb, hf, hm, hp⟩ := hs
    refine ⟨hb, ?_, hmode.trans hm, hp⟩
    rcases hphase with he | ⟨-, he⟩ <;> simp [he, hf]

/-- OP still agrees with the units when the parser has gone on. -/
theorem State.opCoherent_parses {s : State} {p : Parser} (c : Collab) (hs : s.opCoherent) (h : s.prs.Advances p) :
    State.opCoherent { s with prs := p, col := c } := by
  obtain ⟨hact, hmode, hact', -⟩ := h
  unfold State.opCoherent at hs ⊢
  cases ho : s.op <;> simp only [ho] at hs ⊢
  case none | frmData | frmEnd | frmAll => simp_all
  case prsLine | prsRead =>
    obtain ⟨hb, hf, hm, -⟩ := hs
    exact ⟨hb, hf, hmode.trans hm, hact'⟩

theorem Progress.inv {s u : State} (h : Progress s u) (hop : s.op ≠ .none) (hs : s.Inv) (hmem : u.col.mem.wf) : u.Inv := by
  cases h with
  | waits c p =>
    refine ⟨?_, hs.status, hs.frm, hs.prs, hs.len, hs.rem, hmem⟩
    have hco := hs.op
    unfold State.opCoherent at hco ⊢
    cases ho : s.op <;> simp only [State.awaiting_op, ho] at hco ⊢
    case none => exact absurd ho hop
    all_goals exact hco
  | frames c h =>
    exact ⟨State.opCoherent_frames c hs.op h, hs.status, h.range hs.frm, hs.prs, hs.len, h.rem.trans_lt hs.rem, hmem⟩
  | parses c h => exact ⟨State.opCoherent_parses c hs.op h, hs.status, hs.frm, h.range hs.prs, hs.len, hs.rem, hmem⟩
  | succeeds p c eof hrem => exact State.complete_inv hs.len (hrem.trans_lt hs.rem) hmem (by simp) (by simp)
  | fails p c hk hrem => exact State.complete_inv hs.len (hrem.trans_lt hs.rem) hmem (by simp [hk.1]) (by simp)

theorem ihxcStep_inv {s u : State} (hs : s.Inv) (h : ihxcStep s = .next u) : u.Inv := by
  rcases ihxcStep_progress h with rfl | ⟨hop, hp⟩
  · exact hs
  · obtain ⟨ts, -, hts⟩ := ihxcStep_performs h
    exact hp.inv hop hs (hts.mem ▸ memAfter_wf hs.mem ts)

/-! ## Every step -/

theorem State.withAgenda_inv {s : State} (hs : s.Inv) (ms : List Move) : (s.withAgenda ms).Inv :=
  ⟨hs.op, hs.status, hs.frm, hs.prs, hs.len, hs.rem, hs.mem⟩

theorem State.hostRead_inv {s : State} (hs : s.Inv) (r : BitVec 3) : (s.hostRead r).Inv :=
  ⟨hs.op, hs.status, hs.frm, hs.prs, hs.len, hs.rem, hs.mem⟩

theorem State.dropped_inv {s : State} (hs : s.Inv) : s.dropped.Inv :=
  ⟨hs.op, hs.status, hs.frm, hs.prs, hs.len, hs.rem, hs.mem⟩

theorem State.plainWrite_inv {s : State} (hs : s.Inv) (r : BitVec 3) (w : Word) : (s.plainWrite r w).Inv := by
  rw [State.plainWrite_eq]
  refine ⟨hs.op, hs.status, hs.frm, hs.prs, ?_, hs.rem, hs.mem⟩
  dsimp only
  split
  · exact lenField_lt _ _
  · exact hs.len

/-- Reset brings the registers of `State.reset`; the image and the configuration are not IHXC's. -/
theorem State.resetAsserted_inv {s : State} (hs : s.Inv) : s.resetAsserted.Inv where
  op := resetIsCoherent.op
  status := resetIsCoherent.status
  frm := trivial
  prs := trivial
  len := Nat.two_pow_pos _
  rem := Nat.two_pow_pos _
  mem := hs.mem

theorem PlatformMove.apply_mem_wf (p : PlatformMove) {c : Collab} (h : c.mem.wf) : (p.apply c).mem.wf := by
  cases p with
  | image cells draws => exact Memory.writeAll_wf Memory.wf_nil cells
  | poke a v => exact Memory.write_wf h a v
  | connect | input | output => exact h

/-- Settles O30: by the agent that makes the step. -/
theorem stepKeepsCoherence : Obligations.StepKeepsCoherence := by
  intro s t hs h
  have hag := State.withAgenda_inv hs
  cases moveOf_of_step h with
  | ihxc hi => exact ihxcStep_inv (hag _) hi
  | drop => exact State.dropped_inv (hag _)
  | @command _ ms _ _ hb hc => exact ctrlWrite_inv (hag ms) hb hc
  | write => exact State.plainWrite_inv (hag _) _ _
  | read r => exact State.hostRead_inv (hag _) r
  | reset => exact State.resetAsserted_inv (hag _)
  | platform => exact ⟨hs.op, hs.status, hs.frm, hs.prs, hs.len, hs.rem, PlatformMove.apply_mem_wf _ hs.mem⟩

/-! ## No fault -/

theorem emitOrFail_ne_fault (s t : State) (ch : Byte) (k : State → State) (f : Fault) : emitOrFail s t ch k ≠ .fault f := by
  rcases emitOrFail_cases s t ch k with ⟨-, he⟩ | ⟨-, ds, -, he⟩ | ⟨-, ds, -, he⟩ | ⟨-, ds, -, he⟩ <;> simp [he]

theorem consumeOrFail_ne_fault {s : State} {k : Byte → State → Host.Outcome State Fault Refusal} {f : Fault}
    (hk : ∀ ch c, k ch (s.withCol c) ≠ .fault f) : consumeOrFail s k ≠ .fault f := by
  rcases consumeOrFail_cases s k with ⟨-, he⟩ | ⟨-, ds, ch, rest, -, -, he⟩ | ⟨-, ds, -, -, he⟩ | ⟨-, ds, -, he⟩ |
    ⟨-, ds, -, he⟩ <;> simp [he, hk]

/-- The framer faults only where its phase, mode or position has no meaning (10_state.md R29). -/
theorem framerStep_ne_fault {s : State} (hph : s.frm.ph ≠ .idle) (hm : s.frm.ph = .line → s.frm.mode ≠ .fin)
    (hr : s.frm.inRange) (f : Fault) : framerStep s ≠ .fault f := by
  have hemit := emitOrFail_ne_fault (f := f)
  rcases framerStep_cases s with ⟨-, hbad⟩ | ⟨-, -, -, -, he⟩ | ⟨-, -, -, -, he⟩ | ⟨-, -, -, -, he⟩ |
    ⟨-, -, -, -, -, he⟩ | ⟨-, -, -, -, -, ⟨-, he⟩ | ⟨-, ds, -, he⟩ | ⟨-, ds, -, he⟩⟩ | ⟨-, -, -, -, he⟩ |
    ⟨-, -, ch, -, he⟩
  · exfalso
    rcases hbad with hidle | ⟨hl, hfin⟩ | ⟨hl, hpos⟩ | ⟨hl, h0, hpos⟩
    · exact hph hidle
    · exact hm hl hfin
    · simp only [Framer.inRange, hl] at hr
      omega
    · simp only [Framer.inRange, hl] at hr
      obtain ⟨-, -, hle⟩ := hr.resolve_left h0
      omega
  all_goals simp [he, hemit]

theorem dataByte_ne_fault (s t : State) (b : Byte) (f : Fault) : dataByte s t b ≠ .fault f := by
  unfold dataByte
  split <;> simp

theorem recordType_ne_fault (s : State) (b : Byte) (f : Fault) : recordType s b ≠ .fault f := by
  rw [recordType_eq]
  split <;> simp

theorem recordChar_ne_fault {s t : State} {c : Byte} (hi : t.prs.ph ≠ .idle) (hs : t.prs.ph ≠ .seek) (f : Fault) :
    recordChar s t c ≠ .fault f := by
  unfold recordChar
  split
  · simp
  · split
    · cases hp : t.prs.ph <;> simp only [hexByte, State.tookPair_prs, hp]
      case idle => exact absurd hp hi
      case seek => exact absurd hp hs
      case type => exact recordType_ne_fault _ _ _
      case data => exact dataByte_ne_fault _ _ _ _
      case len | adrh | adrl | cks => simp
    · simp

/-- The parser faults only in phase IDLE (10_state.md R28). -/
theorem parserStep_ne_fault {s : State} (hi : s.prs.ph ≠ .idle) (f : Fault) : parserStep s ≠ .fault f := by
  by_cases hs : s.prs.ph = .seek
  · rw [parserStep_seek hs]
    exact consumeOrFail_ne_fault (by simp)
  · rw [parserStep_record hs hi]
    exact consumeOrFail_ne_fault fun ch c => recordChar_ne_fault (t := s.withCol c) hi hs f

theorem ihxcStep_ne_fault {s : State} (hs : s.Inv) (f : Fault) : ihxcStep s ≠ .fault f := by
  cases hw : s.waiting with
  | some p => simp [ihxcStep_waiting hw]
  | none =>
    rw [ihxcStep_free hw]
    have hop := hs.op
    unfold State.opCoherent at hop
    cases ho : s.op <;> simp only [ho, operationStep] at hop ⊢
    case none => simp
    case frmData | frmEnd | frmAll => exact framerStep_ne_fault (by simp [hop]) (by simp [hop]) hs.frm f
    case prsLine | prsRead => exact parserStep_ne_fault (by simp [hop]) f

/-- A command is accepted or dropped. -/
theorem ctrlWrite_ne_fault (s : State) (w : Word) (f : Fault) : ctrlWrite w s ≠ .fault f := by
  unfold ctrlWrite
  split
  · next i _ =>
    obtain ⟨t, he, -⟩ := exec_keeps i s
    simp [he]
  · simp [illegalCommand, acceptOrDrop]

theorem makeMove_ne_fault {m : Move} {s : State} (hs : s.Inv) (f : Fault) : makeMove m s ≠ .fault f := by
  cases m with
  | write r w =>
    simp only [makeMove, hostWrite]
    split
    · exact ctrlWrite_ne_fault s w f
    · simp
  | wait =>
    simp only [makeMove]
    split
    · exact ihxcStep_ne_fault (State.withAgenda_inv hs _) f
    · simp
  | ihxc => exact ihxcStep_ne_fault hs f
  | platform p =>
    simp only [makeMove, platformMove]
    split <;> simp
  | read | reset => simp [makeMove]

/-- Settles O31: only IHXC's step can fault, and there OP, phases and counters agree. -/
theorem coherentStateNeverFaults : Obligations.CoherentStateNeverFaults := by
  intro s f hs
  rcases step_cases s with ⟨-, he⟩ | ⟨m, ms, -, he⟩ <;> rw [he]
  · exact ihxcStep_ne_fault hs f
  · exact makeMove_ne_fault (State.withAgenda_inv hs ms) f

end Sys2Proof.Machine
end

section
/-! ADDR and LEN are read only at acceptance (10_state.md R27, 70_reset_and_hazards.md R240): every function an IHXC step is
made of commutes with giving them other values. -/

namespace Sys2Proof.Machine

/-- The argument registers replaced; an abbreviation, so that every other field of the result is the old one by computation. -/
abbrev State.withArgs (s : State) (a : Addr) (l : Word) : State := { s with addr := a, len := l }

/-- The same change of an answered state. -/
def outcomeWithArgs (a : Addr) (l : Word) : Host.Outcome State Fault Refusal → Host.Outcome State Fault Refusal
  | .next t => .next (t.withArgs a l)
  | .fault f => .fault f
  | .refused r => .refused r

@[simp] theorem outcomeWithArgs_next (a : Addr) (l : Word) (t : State) :
    outcomeWithArgs a l (.next t) = .next (t.withArgs a l) := rfl
@[simp] theorem outcomeWithArgs_fault (a : Addr) (l : Word) (f : Fault) : outcomeWithArgs a l (.fault f) = .fault f := rfl
@[simp] theorem outcomeWithArgs_refused (a : Addr) (l : Word) (r : Refusal) :
    outcomeWithArgs a l (.refused r) = .refused r := rfl

section
variable (s t : State) (a : Addr) (l : Word)

/-! ## Register updates -/

theorem State.closeLine_withArgs : (s.withArgs a l).closeLine = s.closeLine.withArgs a l := by
  simp only [State.closeLine]
  split
  · split <;> rfl
  · rfl

theorem State.nextLiteral_withArgs : (s.withArgs a l).nextLiteral = s.nextLiteral.withArgs a l := by
  simp only [State.nextLiteral]
  split <;> rfl

theorem State.seekChar_withArgs (c : Byte) : (s.withArgs a l).seekChar c = (s.seekChar c).withArgs a l := by
  simp only [State.seekChar]
  split
  · rfl
  · split <;> rfl

theorem State.recordDone_withArgs : (s.withArgs a l).recordDone = s.recordDone.withArgs a l := by
  simp only [State.recordDone]
  split
  · rfl
  · split <;> rfl

theorem State.checkSum_withArgs : (s.withArgs a l).checkSum = s.checkSum.withArgs a l := by
  simp only [State.checkSum]
  split
  · exact s.recordDone_withArgs a l
  · rfl

/-! ## The framer -/

theorem emitOrFail_withArgs (ch : Byte) {k : State → State} (hk : ∀ v, k (v.withArgs a l) = (k v).withArgs a l) :
    emitOrFail (s.withArgs a l) (t.withArgs a l) ch k = outcomeWithArgs a l (emitOrFail s t ch k) := by
  unfold emitOrFail
  dsimp only
  split
  · next c _ => exact congrArg _ (hk (t.withCol c))
  all_goals rfl

theorem literalStep_withArgs :
    literalStep (s.withArgs a l) (t.withArgs a l) = outcomeWithArgs a l (literalStep s t) := by
  unfold literalStep
  dsimp only
  split
  · exact emitOrFail_withArgs s t a l _ (State.nextLiteral_withArgs · a l)
  · rfl

theorem dataByteStep_withArgs (b : Addr) :
    dataByteStep (s.withArgs a l) b = outcomeWithArgs a l (dataByteStep s b) := by
  unfold dataByteStep
  dsimp only
  split
  · next v c _ => exact emitOrFail_withArgs s ((s.withCol c).tookByte v) a l _ (k := State.nextPos) fun _ => rfl
  all_goals rfl

theorem insideLine_withArgs : insideLine (s.withArgs a l) = outcomeWithArgs a l (insideLine s) := by
  unfold insideLine
  dsimp only
  split
  · exact dataByteStep_withArgs s a l _
  · split
    · exact emitOrFail_withArgs s s a l _ fun _ => rfl
    · split
      · exact emitOrFail_withArgs s s a l _ (State.closeLine_withArgs · a l)
      · rfl

theorem lineStep_withArgs : lineStep (s.withArgs a l) = outcomeWithArgs a l (lineStep s) := by
  unfold lineStep
  dsimp only
  split
  · rfl
  · split
    · split
      · split
        · rfl
        · exact literalStep_withArgs s (s.frameLiteral .all) a l
      · exact emitOrFail_withArgs s s.openLine a l _ fun _ => rfl
    · exact insideLine_withArgs s a l

theorem framerStep_withArgs : framerStep (s.withArgs a l) = outcomeWithArgs a l (framerStep s) := by
  unfold framerStep
  dsimp only
  split
  · exact lineStep_withArgs s a l
  · exact literalStep_withArgs s s a l
  · rfl

/-! ## The parser -/

theorem recordType_withArgs (b : Byte) : recordType (s.withArgs a l) b = outcomeWithArgs a l (recordType s b) := by
  simp only [recordType_eq]
  split <;> rfl

theorem dataByte_withArgs (b : Byte) :
    dataByte (s.withArgs a l) (t.withArgs a l) b = outcomeWithArgs a l (dataByte s t b) := by
  unfold dataByte
  dsimp only
  split <;> rfl

theorem hexByte_withArgs (b : Byte) : hexByte (s.withArgs a l) (t.withArgs a l) b = outcomeWithArgs a l (hexByte s t b) := by
  cases hp : t.prs.ph <;> simp only [hexByte, hp]
  case type => exact recordType_withArgs t a l b
  case data => exact dataByte_withArgs s t a l b
  case cks => exact congrArg _ (t.checkSum_withArgs a l)
  case idle | seek | len | adrh | adrl => rfl

theorem recordChar_withArgs (c : Byte) :
    recordChar (s.withArgs a l) (t.withArgs a l) c = outcomeWithArgs a l (recordChar s t c) := by
  unfold recordChar
  dsimp only
  split
  · rfl
  · split
    · exact hexByte_withArgs s (t.tookPair _) a l _
    · rfl

theorem consumeOrFail_withArgs {k k' : Byte → State → Host.Outcome State Fault Refusal}
    (hk : ∀ c v, k' c (v.withArgs a l) = outcomeWithArgs a l (k c v)) :
    consumeOrFail (s.withArgs a l) k' = outcomeWithArgs a l (consumeOrFail s k) := by
  unfold consumeOrFail
  dsimp only
  split
  · next ch c _ => exact hk ch (s.withCol c)
  all_goals rfl

theorem parserStep_withArgs : parserStep (s.withArgs a l) = outcomeWithArgs a l (parserStep s) := by
  by_cases hi : s.prs.ph = .idle
  · simp [parserStep, hi]
  by_cases hs : s.prs.ph = .seek
  · rw [parserStep_seek hs, parserStep_seek (s := s.withArgs a l) hs]
    exact consumeOrFail_withArgs s a l fun c v => congrArg _ (v.seekChar_withArgs a l c)
  · rw [parserStep_record hs hi, parserStep_record (s := s.withArgs a l) hs hi]
    exact consumeOrFail_withArgs s a l fun c v => recordChar_withArgs s v a l c

/-! ## IHXC's step -/

theorem ihxcStep_withArgs : ihxcStep (s.withArgs a l) = outcomeWithArgs a l (ihxcStep s) := by
  cases hw : s.waiting with
  | some p => simp [ihxcStep, hw]
  | none =>
    cases ho : s.op <;> simp only [ihxcStep, operationStep, hw, ho]
    case none => rfl
    case frmData | frmEnd | frmAll => exact framerStep_withArgs s a l
    case prsLine | prsRead => exact parserStep_withArgs s a l

end

/-- Settles O26: IHXC's step leaves ADDR and LEN as they are, and commutes with replacing them. -/
theorem runningOperationIgnoresArguments : Obligations.RunningOperationIgnoresArguments := by
  intro s t a l h
  obtain ⟨-, haddr, hlen, -⟩ := ihxcStep_sameHost h
  refine ⟨haddr, hlen, ?_⟩
  have hcomm := ihxcStep_withArgs s a l
  rwa [h] at hcomm

end Sys2Proof.Machine
end

section
/-! The two opcode spaces (30_encoding.md R76, R81 to R83): which words a row of each matches, and with it what decodes to
what, which words are rejected, and what a rejected command does. -/

namespace Sys2Proof

/-! ## Rows -/

/-- Two rows that match one word agree on the bits both look at. -/
theorem OpRow.values_agree_of_hits {r₁ r₂ : OpRow} {w : Word} (h₁ : r₁.hits w = true) (h₂ : r₂.hits w = true) :
    r₁.value &&& r₂.mask = r₂.value &&& r₁.mask := by
  simp only [OpRow.hits, beq_iff_eq] at h₁ h₂
  rw [← h₁, ← h₂, BitVec.and_assoc, BitVec.and_assoc, BitVec.and_comm r₁.mask]

/-- Settles O3: any two different rows of a space differ in a bit that both of them look at. -/
theorem rowsAreDisjoint : Obligations.RowsAreDisjoint := by
  have commands : ∀ r₁ ∈ commandRows, ∀ r₂ ∈ commandRows, r₁.value &&& r₂.mask = r₂.value &&& r₁.mask → r₁ = r₂ := by
    decide
  have records : ∀ r₁ ∈ recordRows, ∀ r₂ ∈ recordRows, r₁.value &&& r₂.mask = r₂.value &&& r₁.mask → r₁ = r₂ := by
    decide
  exact ⟨fun _ r₁ m₁ r₂ m₂ h₁ h₂ => commands r₁ m₁ r₂ m₂ (OpRow.values_agree_of_hits h₁ h₂),
    fun _ r₁ m₁ r₂ m₂ h₁ h₂ => records r₁ m₁ r₂ m₂ (OpRow.values_agree_of_hits h₁ h₂)⟩

/-- A row that looks at every bit matches its value alone. -/
theorem OpRow.hits_of_full_mask {r : OpRow} (h : r.mask = 0xFFFFFFFF) (w : Word) : r.hits w = true ↔ w = r.value := by
  have hm : r.mask = BitVec.allOnes 32 := h
  rw [OpRow.hits, beq_iff_eq, hm, BitVec.and_allOnes]

theorem encode_ckAdd_toNat (b : Byte) : (encode (.ckAdd b)).toNat = b.toNat * 2 ^ 8 + 2 := by
  have h : encode (.ckAdd b) = (0 : BitVec 16) ++ b ++ (0x02 : Byte) := rfl
  rw [h, toNat_append_add, toNat_append_add]
  simp

theorem byteField_toNat (w : Word) : (byteField w).toNat = w.toNat / 2 ^ 8 % 2 ^ 8 := by
  simp [byteField, Nat.shiftRight_eq_div_pow]

@[simp] theorem byteField_encode_ckAdd (b : Byte) : byteField (encode (.ckAdd b)) = b := by
  apply BitVec.eq_of_toNat_eq
  rw [byteField_toNat, encode_ckAdd_toNat]
  omega

/-- What the mask of CK_ADD leaves of a word: all but its BYTE field (30_encoding.md R81). -/
theorem and_ckAddMask (w : Word) : (w &&& 0xFFFF00FF).toNat = w.toNat / 2 ^ 16 * 2 ^ 16 + w.toNat % 2 ^ 8 := by
  have hw : w = w.extractLsb' 16 16 ++ byteField w ++ w.extractLsb' 0 8 := by
    apply BitVec.eq_of_toNat_eq
    rw [toNat_append_add, toNat_append_add, byteField_toNat]
    simp [Nat.shiftRight_eq_div_pow]
    omega
  have hmask : (0xFFFF00FF : Word) = BitVec.allOnes 16 ++ (0 : Byte) ++ BitVec.allOnes 8 := rfl
  have hand : w &&& 0xFFFF00FF = w.extractLsb' 16 16 ++ (0 : Byte) ++ w.extractLsb' 0 8 := by
    conv_lhs => rw [hw, hmask, BitVec.and_append, BitVec.and_append, BitVec.and_allOnes, BitVec.and_allOnes]
    simp
  rw [hand, toNat_append_add, toNat_append_add]
  simp [Nat.shiftRight_eq_div_pow]
  omega

/-- CK_ADD's row matches the encodings of CK_ADD, each for its own BYTE. -/
theorem rowCkAdd_hits (w : Word) : rowCkAdd.hits w = true ↔ w = encode (.ckAdd (byteField w)) := by
  simp only [OpRow.hits, rowCkAdd, beq_iff_eq, ← BitVec.toNat_inj, and_ckAddMask, encode_ckAdd_toNat, byteField_toNat]
  simp
  omega

/-! ## Commands -/

/-- Command decode compares the word with the encoding of each command. -/
theorem decodeCommand_eq (w : Word) :
    decodeCommand w =
      if w = encode .nop then .ok .nop
      else if w = encode .ckClr then .ok .ckClr
      else if w = encode (.ckAdd (byteField w)) then .ok (.ckAdd (byteField w))
      else if w = encode .frmData then .ok .frmData
      else if w = encode .frmEnd then .ok .frmEnd
      else if w = encode .frmAll then .ok .frmAll
      else if w = encode .prsLine then .ok .prsLine
      else if w = encode .prsRead then .ok .prsRead
      else .error .illegalCommand := by
  have full : ∀ r : OpRow, r.mask = 0xFFFFFFFF → (r.hits w = true ↔ w = r.value) := fun _ h => OpRow.hits_of_full_mask h w
  simp only [decodeCommand, rowCkAdd_hits, full rowNop rfl, full rowCkClr rfl, full rowFrmData rfl, full rowFrmEnd rfl,
    full rowFrmAll rfl, full rowPrsLine rfl, full rowPrsRead rfl]
  rfl

/-- A word that decodes to a command is its encoding (30_encoding.md R82). -/
theorem encode_of_decodeCommand {w : Word} {i : Instr} (h : decodeCommand w = .ok i) : i.isCommand = true ∧ encode i = w := by
  rw [decodeCommand_eq] at h
  split_ifs at h with hw hw hw hw hw hw hw hw <;> cases h <;> exact ⟨rfl, hw.symm⟩

theorem decodeCommand_encode {i : Instr} (h : i.isCommand = true) : decodeCommand (encode i) = .ok i := by
  cases i with
  | ckAdd b =>
    have hlow : (encode (.ckAdd b)).toNat % 2 ^ 8 = 2 := by rw [encode_ckAdd_toNat]; omega
    have hnop : encode (.ckAdd b) ≠ encode .nop := fun h => absurd hlow (by rw [h]; decide)
    have hclr : encode (.ckAdd b) ≠ encode .ckClr := fun h => absurd hlow (by rw [h]; decide)
    rw [decodeCommand_eq, if_neg hnop, if_neg hclr, byteField_encode_ckAdd, if_pos rfl]
  | nop | ckClr | frmData | frmEnd | frmAll | prsLine | prsRead => rfl
  | recData | recEof => cases h

theorem decodeCommand_error {w : Word} {e : DecodeError} (h : decodeCommand w = .error e) : e = .illegalCommand := by
  rw [decodeCommand_eq] at h
  split_ifs at h
  cases h
  rfl

/-- Command decode is total (30_encoding.md R83). -/
theorem decodeCommand_total (w : Word) :
    decodeCommand w = .error .illegalCommand ∨ ∃ i : Instr, i.isCommand = true ∧ decodeCommand w = .ok i := by
  cases h : decodeCommand w with
  | error e => exact .inl (by rw [decodeCommand_error h])
  | ok i => exact .inr ⟨i, (encode_of_decodeCommand h).1, rfl⟩

/-- The words that are no command, by their fields (30_encoding.md R83). -/
theorem decodeCommand_illegal_iff (w : Word) :
    decodeCommand w = .error .illegalCommand ↔
      8 ≤ (w.extractLsb' 0 4).toNat ∨ w.extractLsb' 4 4 ≠ 0 ∨ w.extractLsb' 16 16 ≠ 0 ∨
        (w.extractLsb' 0 4 ≠ 2 ∧ w.extractLsb' 8 8 ≠ 0) := by
  have hop : (w.extractLsb' 0 4).toNat = w.toNat % 16 := by simp
  have hlow : (w.extractLsb' 4 4).toNat = w.toNat / 16 % 16 := by simp [Nat.shiftRight_eq_div_pow]
  have hbyte : (w.extractLsb' 8 8).toNat = w.toNat / 256 % 256 := by simp [Nat.shiftRight_eq_div_pow]
  have hhigh : (w.extractLsb' 16 16).toNat = w.toNat / 65536 % 65536 := by simp [Nat.shiftRight_eq_div_pow]
  rw [decodeCommand_eq]
  simp only [Ne, ← BitVec.toNat_inj, hop, hlow, hbyte, hhigh, encode_ckAdd_toNat, byteField_toNat]
  simp only [encode, BitVec.toNat_ofNat, BitVec.ofNat_eq_ofNat]
  have := w.isLt
  split_ifs <;> simp only [false_iff, true_iff] <;> omega

/-! ## Record headers -/

/-- A header is its three fields (30_encoding.md R76). -/
theorem headerOf_fields (h : Word) : headerOf (headerLl h) (headerAddr h) (headerTt h) = h := by
  apply BitVec.eq_of_toNat_eq
  rw [headerOf_toNat, headerLl_toNat, headerAddr_toNat, headerTt_toNat]
  omega

/-- Record-type decode reads the three fields (30_encoding.md R76, R77). -/
theorem decodeHeader_eq (h : Word) :
    decodeHeader h =
      if headerTt h = 0x00 then .ok (.recData (headerLl h) (headerAddr h))
      else if headerTt h = 0x01 then .ok (.recEof (headerLl h) (headerAddr h))
      else .error .illegalType := by
  conv_lhs => rw [← headerOf_fields h, decodeHeader_headerOf]

theorem encode_of_decodeHeader {h : Word} {i : Instr} (hd : decodeHeader h = .ok i) : i.isCommand = false ∧ encode i = h := by
  rw [decodeHeader_eq] at hd
  split_ifs at hd with ht ht <;> cases hd
  · exact ⟨rfl, by rw [encode, ← ht, headerOf_fields]⟩
  · exact ⟨rfl, by rw [encode, ← ht, headerOf_fields]⟩

theorem decodeHeader_encode {i : Instr} (h : i.isCommand = false) : decodeHeader (encode i) = .ok i := by
  cases i with
  | recData ll aaaa => exact decodeHeader_headerOf ll aaaa 0x00
  | recEof ll aaaa => exact decodeHeader_headerOf ll aaaa 0x01
  | _ => cases h

/-- Settles O5: a header's type byte is neither 0 nor 1 exactly when it is 2 or more. -/
theorem illegalTypesExactly : Obligations.IllegalTypesExactly := by
  intro h
  change _ ↔ 2 ≤ (headerTt h).toNat
  have htt : 2 ≤ (headerTt h).toNat ↔ headerTt h ≠ 0x00 ∧ headerTt h ≠ 0x01 := by
    simp [← BitVec.toNat_inj]
    omega
  rw [htt, decodeHeader_eq]
  split_ifs with h0 h1
  · simp [h0]
  · simp [h1]
  · exact ⟨fun _ => ⟨h0, h1⟩, fun _ => rfl⟩

/-! ## Both spaces -/

/-- Settles O2: each decoder compares its word with the encodings of its own space. -/
theorem decodeEncodeAgree : Obligations.DecodeEncodeAgree := by
  refine ⟨fun i => ?_, fun _ _ => encode_of_decodeCommand, fun _ _ => encode_of_decodeHeader⟩
  unfold decodeFor
  split
  · next h => exact decodeCommand_encode h
  · next h => exact decodeHeader_encode (by simpa using h)

/-- Settles O1: each word is the encoding of its instruction. -/
theorem writtenWordsDecode : Obligations.WrittenWordsDecode :=
  ⟨decodeCommand_encode (i := .nop) rfl, decodeCommand_encode (i := .ckClr) rfl, decodeCommand_encode (i := .ckAdd 0xAA) rfl,
    decodeCommand_encode (i := .frmAll) rfl, decodeCommand_encode (i := .prsRead) rfl,
    decodeHeader_encode (i := .recData 0x03 0x1000) rfl, decodeHeader_encode (i := .recEof 0x00 0x1234) rfl⟩

end Sys2Proof

namespace Sys2Proof.Machine

/-! ## A word written to CTRL -/

/-- A command word written to CTRL runs its instruction (43_control.md R190). -/
theorem ctrlWrite_command {w : Word} {i : Instr} (h : decodeCommand w = .ok i) (s : State) : ctrlWrite w s = exec i s := by
  simp [ctrlWrite, h]

theorem ctrlWrite_illegal {w : Word} {e : DecodeError} (h : decodeCommand w = .error e) (s : State) :
    ctrlWrite w s = illegalCommand s := by
  simp [ctrlWrite, h]

/-- A write to CTRL at the head of the agenda is the next step (43_control.md R195). -/
theorem step_ctrlWrite {s : State} {w : Word} {ms : List Move} (h : s.agenda = .write regCtrl w :: ms) :
    step s = ctrlWrite w (s.withAgenda ms) := by
  simp [step, agendaStep, h, makeMove, hostWrite]

/-- A read at the head of the agenda is the next step (43_control.md R194). -/
theorem step_read {s : State} {r : BitVec 3} {ms : List Move} (h : s.agenda = .read r :: ms) :
    step s = .next ((s.withAgenda ms).hostRead r) := by
  simp [step, agendaStep, h, makeMove]

theorem illegalCommand_idle {s : State} (h : s.status.busy = false) :
    illegalCommand s = .next (s.accepted.fail .illegalCmd) :=
  acceptOrDrop_idle h _

/-- Settles O4: the illegal words by their fields, totality, and the failure an illegal word ends in. -/
theorem illegalWordsExactly : Obligations.IllegalWordsExactly := by
  refine ⟨decodeCommand_illegal_iff, decodeCommand_total, fun s w ms ha hb hd => ?_⟩
  refine ⟨(s.withAgenda ms).accepted.fail .illegalCmd, ?_, by simp⟩
  rw [step_ctrlWrite ha, ctrlWrite_illegal hd, illegalCommand_idle (by simpa using hb)]

end Sys2Proof.Machine
end

section
/-! Hex digits (30_encoding.md R73 to R75): which characters they are, that `hexval` undoes `digit`, and that the digits of a
byte or of an address read back as it. -/

namespace Sys2Proof.Machine

/-! ## One digit -/

theorem isHex_iff (c : Byte) :
    isHex c = true ↔
      (0x30 ≤ c.toNat ∧ c.toNat ≤ 0x39) ∨ (0x61 ≤ c.toNat ∧ c.toNat ≤ 0x66) ∨ (0x41 ≤ c.toNat ∧ c.toNat ≤ 0x46) := by
  unfold isHex hexval
  split_ifs <;> simp <;> omega

/-- The value of a hex digit, by its range (30_encoding.md R73). -/
theorem hexval_cases {c : Byte} {v : Nib} (h : hexval c = some v) :
    (0x30 ≤ c.toNat ∧ c.toNat ≤ 0x39 ∧ v.toNat = c.toNat - 0x30) ∨
    (0x61 ≤ c.toNat ∧ c.toNat ≤ 0x66 ∧ v.toNat = c.toNat - 0x61 + 10) ∨
    (0x41 ≤ c.toNat ∧ c.toNat ≤ 0x46 ∧ v.toNat = c.toNat - 0x41 + 10) := by
  unfold hexval at h
  split_ifs at h with hc hc hc <;> cases h <;> rw [BitVec.toNat_ofNat] <;> omega

/-- `digit` by its range (30_encoding.md R74). -/
theorem digit_toNat (v : Nib) : (digit v).toNat = if v.toNat < 10 then 0x30 + v.toNat else 0x57 + v.toNat := by
  unfold digit
  split_ifs <;> rw [BitVec.toNat_ofNat] <;> omega

/-- A digit the framer writes has its own value (30_encoding.md R73, R74). -/
@[simp] theorem hexval_digit (v : Nib) : hexval (digit v) = some v := by
  have hd := digit_toNat v
  have hv := v.isLt
  unfold hexval
  by_cases h : v.toNat < 10
  · rw [if_pos h] at hd
    rw [if_pos (by omega), hd]
    simp
  · rw [if_neg h] at hd
    rw [if_neg (by omega), if_pos (by omega), hd, show 0x57 + v.toNat - 0x61 + 10 = v.toNat by omega]
    simp

theorem digit_not_upper (v : Nib) : (digit v).toNat ≤ 0x39 ∨ 0x61 ≤ (digit v).toNat := by
  rw [digit_toNat]
  split_ifs <;> omega

/-! ## Pairs and addresses -/

theorem pairByte_toNat (hi lo : Nib) : (pairByte hi lo).toNat = hi.toNat * 16 + lo.toNat := toNat_append_add hi lo

theorem addrOf_toNat (ahi alo : Byte) : (addrOf ahi alo).toNat = ahi.toNat * 256 + alo.toNat := toNat_append_add ahi alo

theorem hiNib_toNat (b : Byte) : (hiNib b).toNat = b.toNat / 16 % 16 := by simp [hiNib, Nat.shiftRight_eq_div_pow]

theorem loNib_toNat (b : Byte) : (loNib b).toNat = b.toNat % 16 := by simp [loNib]

theorem hiByte_toNat (a : Addr) : (hiByte a).toNat = a.toNat / 256 % 256 := by simp [hiByte, Nat.shiftRight_eq_div_pow]

theorem loByte_toNat (a : Addr) : (loByte a).toNat = a.toNat % 256 := by simp [loByte]

@[simp] theorem pairByte_hiNib_loNib (b : Byte) : pairByte (hiNib b) (loNib b) = b := by
  apply BitVec.eq_of_toNat_eq
  rw [pairByte_toNat, hiNib_toNat, loNib_toNat]
  omega

@[simp] theorem addrOf_hiByte_loByte (a : Addr) : addrOf (hiByte a) (loByte a) = a := by
  apply BitVec.eq_of_toNat_eq
  rw [addrOf_toNat, hiByte_toNat, loByte_toNat]
  omega

/-! ## Texts -/

@[simp] theorem hex2_length (b : Byte) : (hex2 b).length = 2 := rfl

@[simp] theorem hex4_length (a : Addr) : (hex4 a).length = 4 := rfl

/-- The digits of a byte read back as it, whatever follows them. -/
theorem hexPairs_hex2_append (b : Byte) (cs : List Byte) : hexPairs (hex2 b ++ cs) = (hexPairs cs).map (b :: ·) := by
  cases h : hexPairs cs <;> simp [hex2, hexPairs, h]

@[simp] theorem hexPairs_hex2 (b : Byte) : hexPairs (hex2 b) = some [b] := by
  simpa [hexPairs] using hexPairs_hex2_append b []

@[simp] theorem hexPairs_hex4 (a : Addr) : hexPairs (hex4 a) = some [hiByte a, loByte a] := by
  simp [hex4, hexPairs_hex2_append]

theorem hex2_not_upper {b c : Byte} (h : c ∈ hex2 b) : c.toNat ≤ 0x39 ∨ 0x61 ≤ c.toNat := by
  simp only [hex2, List.mem_cons, List.not_mem_nil, or_false] at h
  rcases h with rfl | rfl <;> exact digit_not_upper _

theorem hex4_not_upper {a : Addr} {c : Byte} (h : c ∈ hex4 a) : c.toNat ≤ 0x39 ∨ 0x61 ≤ c.toNat :=
  (List.mem_append.mp h).elim hex2_not_upper hex2_not_upper

/-- Settles O6: `hexval` undoes `digit`, and each field is its two halves appended. -/
theorem hexDigitsReadBack : Obligations.HexDigitsReadBack := by
  refine ⟨isHex_iff, fun c v h => ?_, pairByte_toNat, fun b => ⟨hex2_length b, hexPairs_hex2 b⟩,
    fun a => ⟨hex4_length a, hexPairs_hex4 a, addrOf_hiByte_loByte a⟩, fun _ _ => hex2_not_upper, fun _ _ => hex4_not_upper,
    addrOf_toNat⟩
  rcases hexval_cases h with h | h | h <;> omega

end Sys2Proof.Machine
end

section
/-! The pseudo-instructions `ck.compute` and `ck.verify` (30_encoding.md R85; 40_checksum.md R101 to R103): a run of CK_CLR and
CK_ADD leaves the sum of the bytes in CK_ACC, where the read that follows finds it. -/

namespace Sys2Proof.Machine

/-! ## Sums -/

theorem sum8_cons (b : Byte) (bs : List Byte) : sum8 (b :: bs) = b + sum8 bs := by
  simp [sum8, BitVec.ofNat_add]

/-! ## Single steps -/

/-- CK_CLR on an idle machine (40_checksum.md R101). -/
theorem exec_ckClr_idle {s : State} (h : s.status.busy = false) :
    exec .ckClr s = .next ((s.accepted.withCkAcc 0).complete true false .none) := by
  simp [exec, execCkClr, acceptOrDrop_idle h]

/-- CK_ADD on an idle machine (40_checksum.md R102). -/
theorem exec_ckAdd_idle {s : State} (b : Byte) (h : s.status.busy = false) :
    exec (.ckAdd b) s = .next ((s.accepted.withCkAcc (s.ckAcc + b)).complete true false .none) := by
  simp [exec, execCkAdd, acceptOrDrop_idle h]

/-- A command's move at the head of the agenda runs the command (30_encoding.md R84, 43_control.md R190). -/
theorem step_commandMove {s : State} {i : Instr} {ms : List Move} (hi : i.isCommand = true)
    (h : s.agenda = commandMove i :: ms) : step s = exec i (s.withAgenda ms) := by
  rw [step_ctrlWrite h, ctrlWrite_command (decodeCommand_encode hi)]

/-- An idle machine `s` after a command of the checksum unit: CK_ACC holds `acc`, the moves `ms` are left. -/
def State.summed (s : State) (acc : Byte) (ms : List Move) : State :=
  ((s.withAgenda ms).accepted.withCkAcc acc).complete true false .none

theorem step_ckClr {s : State} {ms : List Move} (hb : s.status.busy = false) (h : s.agenda = commandMove .ckClr :: ms) :
    step s = .next (s.summed 0 ms) := by
  rw [step_commandMove rfl h, exec_ckClr_idle (s := s.withAgenda ms) hb]
  rfl

theorem step_ckAdd_summed (s : State) (acc b : Byte) (ms : List Move) :
    step (s.summed acc (commandMove (.ckAdd b) :: ms)) = .next (s.summed (acc + b) ms) := by
  rw [step_commandMove (i := .ckAdd b) rfl rfl, exec_ckAdd_idle b rfl]
  rfl

/-! ## Runs -/

/-- A CK_ADD for each byte adds the bytes up (40_checksum.md R103). -/
theorem run_ckAdds (s : State) (acc : Byte) (bs : List Byte) (ms : List Move) :
    run bs.length (s.summed acc ((bs.map fun b => commandMove (.ckAdd b)) ++ ms)) = .next (s.summed (acc + sum8 bs) ms) := by
  induction bs generalizing acc with
  | nil => simp [sum8]
  | cons b bs ih =>
    rw [List.length_cons, List.map_cons, List.cons_append, run_succ (step_ckAdd_summed ..), ih, sum8_cons, BitVec.add_assoc]

/-- CK_CLR, a CK_ADD for each byte, and the read of a register, on an idle machine (30_encoding.md R85). -/
theorem run_ckSum_read {s : State} {bs : List Byte} {r : BitVec 3} {ms : List Move} (hb : s.status.busy = false)
    (h : s.agenda = commandMove .ckClr :: (bs.map fun b => commandMove (.ckAdd b)) ++ [.read r] ++ ms) :
    run (bs.length + 2) s = .next ((s.summed (sum8 bs) ms).hostRead r) := by
  rw [List.append_assoc, List.cons_append] at h
  have hadds := run_ckAdds s 0 bs (.read r :: ms)
  rw [show 0 + sum8 bs = sum8 bs from BitVec.zero_add _] at hadds
  rw [run_succ (step_ckClr hb h), List.singleton_append, run_add hadds 1, run_succ (step_read rfl) 0]
  rfl

/-- Settles O19: both forms sum the bytes into CK_ACC; CK_OUT is the sum's negation and CKZ whether it is 0. -/
theorem ckComputeAndVerify : Obligations.CkComputeAndVerify := by
  constructor <;> intro s bs ms hb ha
  · exact ⟨_, run_ckSum_read hb ha, rfl, rfl, rfl, rfl, rfl, rfl⟩
  · refine ⟨_, run_ckSum_read hb ha, rfl, ?_, rfl, rfl⟩
    obtain ⟨-, -, -, -, -, hckz⟩ := statusBits_flags (s.summed (sum8 bs) ms).status (s.summed (sum8 bs) ms).ckz
    exact hckz

end Sys2Proof.Machine
end

section
/-! The checksum function (40_checksum.md R100, R104, R105): `sum8` is the sum of the byte list in the ring of bytes, so its
laws are those of a sum and of negation. -/

namespace Sys2Proof.Machine

/-! ## The sum -/

@[simp] theorem sum8_nil : sum8 [] = 0 := rfl

/-- Reducing the exact sum once is adding with an accumulator that wraps (40_checksum.md R100). -/
theorem sum8_eq_sum (s : List Byte) : sum8 s = s.sum := by
  induction s with
  | nil => rfl
  | cons b s ih => rw [sum8_cons, List.sum_cons, ih]

@[simp] theorem sum8_append (s t : List Byte) : sum8 (s ++ t) = sum8 s + sum8 t := by
  simp only [sum8_eq_sum, List.sum_append]

@[simp] theorem sum8_singleton (b : Byte) : sum8 [b] = b := by simp [sum8_cons]

theorem sum8_perm {s t : List Byte} (h : s.Perm t) : sum8 s = sum8 t := by
  simp only [sum8_eq_sum, h.sum_eq]

theorem foldl_add_eq_sum8 (s : List Byte) : s.foldl (fun acc b => acc + b) 0 = sum8 s := by
  rw [sum8_eq_sum, List.sum_eq_foldl]

/-- Settles O9: `sum8` is a sum, and negating a byte is subtracting it from 256. -/
theorem checksumFunction : Obligations.ChecksumFunction :=
  ⟨fun _ => BitVec.toNat_ofNat _ _, fun _ => BitVec.toNat_neg _, sum8_nil, foldl_add_eq_sum8,
    fun _ _ h => congrArg Neg.neg (sum8_perm h)⟩

/-! ## The checksum -/

theorem cks_append (s t : List Byte) : cks (s ++ t) = cks s + cks t := by
  simp only [cks, sum8_append, neg_add]

theorem cks_of_sum8_zero {s : List Byte} (h : sum8 s = 0) : cks s = 0 := by
  rw [cks, h, neg_zero]

/-- A byte completes a sequence to a valid one exactly when it is the sequence's checksum (40_checksum.md R104). -/
theorem sum8_append_singleton_zero_iff (s : List Byte) (cc : Byte) : sum8 (s ++ [cc]) = 0 ↔ cc = cks s := by
  rw [sum8_append, sum8_singleton, cks, eq_neg_iff_add_eq_zero, add_comm]

/-- Changing one byte changes the sum (40_checksum.md R105). -/
theorem sum8_inj_at (s t : List Byte) {b c : Byte} (h : sum8 (s ++ b :: t) = sum8 (s ++ c :: t)) : b = c := by
  rw [sum8_append, sum8_append, sum8_cons, sum8_cons] at h
  exact add_right_cancel (add_left_cancel h)

/-- Settles O10: a sum splits over concatenation and every byte has exactly one negation. -/
theorem checksumLaws : Obligations.ChecksumLaws := by
  have happended (s : List Byte) : sum8 (s ++ [cks s]) = 0 := (sum8_append_singleton_zero_iff s _).mpr rfl
  refine ⟨cks_of_sum8_zero sum8_nil, fun s => ⟨happended s, cks_of_sum8_zero (happended s)⟩, cks_append,
    fun _ => cks_of_sum8_zero, fun s t b c hne h => hne (sum8_inj_at s t h), fun s cc => ?_⟩
  rw [validBytes, beq_iff_eq, sum8_append_singleton_zero_iff]

end Sys2Proof.Machine
end

section
/-! CK_CLR and CK_ADD as commands (40_checksum.md R101, R102): their words, what an idle machine makes of them, and what drops or
rejects them. -/

namespace Sys2Proof.Machine

/-- CK_ADD's word by its fields: OP in the low nibble, BYTE in bits 15 to 8 (30_encoding.md R81). -/
theorem encode_ckAdd_eq_or (b : Byte) : encode (.ckAdd b) = 0x00000002 ||| (b.zeroExtend 32 <<< 8) := by
  have hfields : b.toNat <<< 8 + 2 = b.toNat <<< 8 ||| 2 := Nat.shiftLeft_add_eq_or_of_lt (by decide) _
  have hbyte : b.toNat % 4294967296 = b.toNat := by omega
  have hfits : b.toNat <<< 8 % 4294967296 = b.toNat <<< 8 := by rw [Nat.shiftLeft_eq]; omega
  apply BitVec.eq_of_toNat_eq
  rw [encode_ckAdd_toNat, ← Nat.shiftLeft_eq, hfields, Nat.or_comm]
  simp [hbyte, hfits]

/-- CK_OUT reads as the negation of CK_ACC (40_checksum.md R103). -/
theorem State.regValue_ckOut (s : State) : s.regValue regCkOut = (-s.ckAcc).zeroExtend 32 := rfl

/-- CK_CLR while BUSY = 1 (43_control.md R191). -/
theorem exec_ckClr_busy {s : State} (h : s.status.busy = true) : exec .ckClr s = .next s.dropped := by
  simp [exec, execCkClr, acceptOrDrop_busy h]

/-- A word that is no command leaves CK_ACC alone, dropped or rejected (43_control.md R191, R193). -/
theorem ctrlWrite_illegal_ckAcc {w : Word} {e : DecodeError} (h : decodeCommand w = .error e) (s : State) :
    ∃ t, ctrlWrite w s = .next t ∧ t.ckAcc = s.ckAcc := by
  cases hb : s.status.busy
  · exact ⟨_, (ctrlWrite_illegal h s).trans (illegalCommand_idle hb), rfl⟩
  · exact ⟨_, ctrlWrite_busy w hb, rfl⟩

/-- Settles O16: acceptance, CK_ACC at 0 and completion are one step, and a busy machine only sets DROP. -/
theorem ckClrCompletes : Obligations.CkClrCompletes := by
  refine ⟨rfl, decodeCommand_encode (i := .ckClr) rfl, fun s hb => exec_ckClr_idle hb, fun s t hb h => ?_,
    fun s hb => exec_ckClr_busy hb⟩
  rw [exec_ckClr_idle hb] at h
  cases h
  exact ⟨rfl, rfl, by simp [State.regValue_ckOut]⟩

/-- Settles O17: acceptance, the addition and completion are one step, and a reserved bit makes the word no command. -/
theorem ckAddCompletes : Obligations.CkAddCompletes := by
  refine ⟨fun b => ?_, fun b s hb => exec_ckAdd_idle b hb, fun b s t hb h => ?_, fun w _ hres => ?_⟩
  · rw [← encode_ckAdd_eq_or]
    exact ⟨rfl, decodeCommand_encode rfl⟩
  · rw [exec_ckAdd_idle b hb] at h
    cases h
    exact ⟨rfl, BitVec.toNat_add _ _, State.regValue_ckOut _⟩
  · have hill : decodeCommand w = .error .illegalCommand :=
      (decodeCommand_illegal_iff w).mpr (.inr (hres.imp_right .inl))
    exact ⟨hill, ctrlWrite_illegal_ckAcc hill⟩

end Sys2Proof.Machine
end

section
/-! The framer's text (41_framer.md R120, R121, R127): the addresses of a range, the chunks it is cut into, and the record that a
data line writes out. -/

namespace Sys2Proof.Machine

/-! ## Ranges of addresses -/

theorem addrsFrom_succ (a : Addr) (n : Nat) : addrsFrom a (n + 1) = a :: addrsFrom (a + 1) n := by
  have hnext (i : Nat) : a + BitVec.ofNat 16 (i + 1) = a + 1 + BitVec.ofNat 16 i := by
    rw [Nat.add_comm i 1, BitVec.ofNat_add, ← BitVec.add_assoc]
    rfl
  rw [addrsFrom, List.range_succ_eq_map, List.map_cons, List.map_map, BitVec.ofNat_eq_ofNat, BitVec.add_zero]
  exact congrArg _ (List.map_congr_left fun i _ => hnext i)

theorem addrsFrom_add (a : Addr) (i j : Nat) :
    addrsFrom a (i + j) = addrsFrom a i ++ addrsFrom (a + BitVec.ofNat 16 i) j := by
  simp [addrsFrom, List.range_add, BitVec.ofNat_add, BitVec.add_assoc]

theorem mem_addrsFrom {a b : Addr} {n : Nat} : b ∈ addrsFrom a n ↔ ∃ i < n, b = a + BitVec.ofNat 16 i := by
  simp [addrsFrom, eq_comm]

theorem imageBytes_eq_map (m : Memory) (a : Addr) (n : Nat) : imageBytes m a n = (addrsFrom a n).map m.read := by
  simp [imageBytes, addrsFrom]

@[simp] theorem imageBytes_length (m : Memory) (a : Addr) (n : Nat) : (imageBytes m a n).length = n := by
  simp [imageBytes]

theorem imageBytes_add (m : Memory) (a : Addr) (i j : Nat) :
    imageBytes m a (i + j) = imageBytes m a i ++ imageBytes m (a + BitVec.ofNat 16 i) j := by
  simp [imageBytes_eq_map, addrsFrom_add]

/-! ## Chunks of 16 -/

/-- What `g` gives for the chunks of `n` bytes at `a`, one after another (41_framer.md R121). -/
def chunks {α : Type} (g : Addr → Nat → List α) (a : Addr) (n : Nat) : List α :=
  (List.range ((n + 15) / 16)).flatMap fun j => g (a + BitVec.ofNat 16 (16 * j)) (min 16 (n - 16 * j))

theorem dataText_eq_chunks (cfg : Config) (m : Memory) (a : Addr) (n : Nat) :
    dataText cfg m a n = chunks (fun b k => lineText cfg b (imageBytes m b k)) a n := rfl

@[simp] theorem chunks_zero {α : Type} (g : Addr → Nat → List α) (a : Addr) : chunks g a 0 = [] := rfl

/-- The first chunk, then those of what is left: the loop of 41_framer.md R122. -/
theorem chunks_eq {α : Type} (g : Addr → Nat → List α) (a : Addr) {n : Nat} (hn : n ≠ 0) :
    chunks g a n = g a (min 16 n) ++ chunks g (a + BitVec.ofNat 16 (min 16 n)) (n - min 16 n) := by
  have hcount : (n + 15) / 16 = (n - min 16 n + 15) / 16 + 1 := by omega
  rw [chunks, hcount, List.range_succ_eq_map, List.flatMap_cons, List.flatMap_map, chunks]
  congr 1
  · simp
  · refine congrArg List.flatten (List.map_congr_left fun j hj => ?_)
    -- a second chunk is there only when the first is full
    have hfull : min 16 n = 16 := by
      have := List.mem_range.mp hj
      omega
    rw [hfull, show 16 * (j + 1) = 16 + 16 * j by omega, BitVec.ofNat_add, ← BitVec.add_assoc, Nat.sub_sub]

/-- Induction along the chunks. -/
theorem chunk_induction {P : Addr → Nat → Prop} (zero : ∀ a, P a 0)
    (chunk : ∀ a n, n ≠ 0 → P (a + BitVec.ofNat 16 (min 16 n)) (n - min 16 n) → P a n) (a : Addr) (n : Nat) : P a n := by
  induction n using Nat.strong_induction_on generalizing a with
  | h n ih =>
    by_cases hn : n = 0
    · exact hn ▸ zero a
    · exact chunk a n hn (ih _ (by omega) _)

/-- What splits as the range does is the same cut into chunks or not. -/
theorem chunks_eq_self {α : Type} {g : Addr → Nat → List α} (h0 : ∀ a, g a 0 = [])
    (hadd : ∀ a i j, g a (i + j) = g a i ++ g (a + BitVec.ofNat 16 i) j) (a : Addr) (n : Nat) : chunks g a n = g a n := by
  induction a, n using chunk_induction with
  | zero a => exact (h0 a).symm
  | chunk a n hn ih => rw [chunks_eq g a hn, ih, ← hadd, Nat.add_sub_cancel' (Nat.min_le_right 16 n)]

theorem chunks_addrsFrom (a : Addr) (n : Nat) : chunks addrsFrom a n = addrsFrom a n :=
  chunks_eq_self (fun _ => rfl) addrsFrom_add a n

theorem map_chunks {α β : Type} (f : α → β) (g : Addr → Nat → List α) (a : Addr) (n : Nat) :
    (chunks g a n).map f = chunks (fun b k => (g b k).map f) a n := List.map_flatMap

theorem filterMap_chunks {α β : Type} (f : α → Option β) (g : Addr → Nat → List α) (a : Addr) (n : Nat) :
    (chunks g a n).filterMap f = chunks (fun b k => (g b k).filterMap f) a n := List.filterMap_flatMap

/-! ## A data line -/

/-- The record a data line writes out (41_framer.md R120, 30_encoding.md R70). -/
def lineRecord (a : Addr) (d : List Byte) : Record :=
  { ll := BitVec.ofNat 8 d.length, aaaa := a, tt := 0x00, data := d, cc := cks (lineBytes a d) }

theorem lineRecord_bytes (a : Addr) (d : List Byte) : (lineRecord a d).bytes = lineBytes a d ++ [cks (lineBytes a d)] := rfl

theorem lineText_eq (cfg : Config) (a : Addr) (d : List Byte) :
    lineText cfg a d = chColon :: (lineRecord a d).bytes.flatMap hex2 ++ [cfg.newline] := by
  simp [lineText, lineRecord_bytes, lineBytes, hex4]

theorem lineRecord_wf {a : Addr} {d : List Byte} (hd : d.length ≤ 16) : (lineRecord a d).wf = true := by
  have hlen : (lineRecord a d).lengthOk = true := by
    simp only [Record.lengthOk, lineRecord, BitVec.toNat_ofNat, beq_iff_eq]
    omega
  have htype : (lineRecord a d).typeOk = true := rfl
  have hsum : (lineRecord a d).sumOk = true := beq_iff_eq.mpr ((sum8_append_singleton_zero_iff _ _).mpr rfl)
  rw [Record.wf, hlen, htype, hsum]
  rfl

theorem length_flatMap_hex2 (bs : List Byte) : (bs.flatMap hex2).length = 2 * bs.length := by
  simp [List.length_flatMap, Nat.mul_comm]

theorem lineText_length (cfg : Config) (a : Addr) (d : List Byte) : (lineText cfg a d).length = 12 + 2 * d.length := by
  simp only [lineText_eq, lineRecord_bytes, lineBytes, List.length_append, List.length_cons, List.length_nil,
    length_flatMap_hex2]
  omega

/-- The digits of bytes read back as the bytes (30_encoding.md R73, R74). -/
@[simp] theorem hexPairs_flatMap_hex2 (bs : List Byte) : hexPairs (bs.flatMap hex2) = some bs := by
  induction bs with
  | nil => rfl
  | cons b bs ih => rw [List.flatMap_cons, hexPairs_hex2_append, ih, Option.map_some]

/-- Settles O7: a data line is ':', the digits of `lineRecord` and NEWLINE, and its checksum makes the record's sum 0. -/
theorem dataLinesAreWellFormed : Obligations.DataLinesAreWellFormed := by
  intro cfg a d _ hmax
  refine ⟨lineText_length cfg a d, _, lineRecord a d, lineText_eq cfg a d, hexPairs_flatMap_hex2 _, lineRecord_wf hmax, ?_,
    rfl, rfl, rfl⟩
  simp only [lineRecord, BitVec.toNat_ofNat]
  omega

/-! ## The data text -/

theorem dataText_length (cfg : Config) (m : Memory) (a : Addr) (n : Nat) :
    (dataText cfg m a n).length = 12 * ((n + 15) / 16) + 2 * n := by
  rw [dataText_eq_chunks]
  induction a, n using chunk_induction with
  | zero a => rfl
  | chunk a n hn ih =>
    rw [chunks_eq _ a hn, List.length_append, ih, lineText_length, imageBytes_length]
    omega

/-- Settles O8: a range of bytes splits into its chunks, each of which is a line of its own. -/
theorem chunksCoverTheRange : Obligations.ChunksCoverTheRange := by
  refine fun cfg m a n => ⟨dataText_length cfg m a n, chunks_eq_self (fun _ => rfl) (imageBytes_add m) a n, fun j hj => ?_⟩
  rw [chunkBytes, imageBytes_length]
  omega

end Sys2Proof.Machine
end

section
/-! The framer's work as a list of emissions, one a step (41_framer.md R125): each command's emissions spell out the command's text
and read the command's range, the pseudocode of R122 to R124 is to make them in order, and what comes of it where the sink
serves or faults (R126). -/

namespace Sys2Proof.Machine

/-! ## Procedures -/

theorem Proc.bind_assoc {α β γ : Type} (p : Proc α) (k : α → Collab → Proc β) (l : β → Collab → Proc γ) :
    (p.bind k).bind l = p.bind fun a c => (k a c).bind l := by
  cases p <;> rfl

/-- What follows a procedure matters only where the procedure ends. -/
theorem Proc.bind_congr {α β : Type} {p : Proc α} {k l : α → Collab → Proc β} (h : ∀ a c, p = .done a c → k a c = l a c) :
    p.bind k = p.bind l := by
  cases p with
  | done a c => exact h a c rfl
  | failed | hung | unfinished | refused => rfl

theorem Proc.bind_done {α β : Type} {p : Proc α} {k : α → Collab → Proc β} {b : β} {c : Collab}
    (h : p.bind k = .done b c) : ∃ a c₁, p = .done a c₁ ∧ k a c₁ = .done b c := by
  cases p with
  | done a c₁ => exact ⟨a, c₁, rfl, h⟩
  | failed | hung | unfinished | refused => cases h

@[simp] theorem Proc.done_bind {α β : Type} (a : α) (c : Collab) (k : α → Collab → Proc β) :
    (Proc.done a c).bind k = k a c := rfl

@[simp] theorem Proc.bind_pure (p : Proc Unit) : (p.bind fun _ c => .done () c) = p := by
  cases p <;> rfl

theorem readProc_done {a : Addr} {c c' : Collab} {v : Byte} (h : readProc a c = .done v c') :
    v = c.mem.read a ∧ c'.mem = c.mem := by
  unfold readProc at h
  rcases c.memRead_cases a with ⟨-, he⟩ | ⟨-, ds, -, he⟩ | ⟨-, ds, -, he⟩ <;> rw [he] at h <;> cases h
  exact ⟨rfl, rfl⟩

theorem emitProc_done {ch : Byte} {c c' : Collab} {u : Unit} (h : emitProc ch c = .done u c') : c'.mem = c.mem := by
  unfold emitProc at h
  rcases c.emit_cases ch with ⟨-, he⟩ | ⟨-, ds, -, he⟩ | ⟨-, ds, -, he⟩ | ⟨-, ds, -, he⟩ <;> rw [he] at h <;> cases h
  rfl

/-! ## Emissions -/

/-- What the framer does in one step: it emits a character, or reads the cell at `a` and emits the first digit of its byte
(41_framer.md R125). -/
inductive Emission where
  | char (ch : Byte)
  | first (a : Addr) (ch : Byte)

def Emission.ch : Emission → Byte
  | .char ch => ch
  | .first _ ch => ch

def Emission.addr? : Emission → Option Addr
  | .char _ => none
  | .first a _ => some a

@[simp] theorem Emission.ch_char (ch : Byte) : (Emission.char ch).ch = ch := rfl
@[simp] theorem Emission.ch_first (a : Addr) (ch : Byte) : (Emission.first a ch).ch = ch := rfl
@[simp] theorem Emission.addr?_char (ch : Byte) : (Emission.char ch).addr? = none := rfl
@[simp] theorem Emission.addr?_first (a : Addr) (ch : Byte) : (Emission.first a ch).addr? = some a := rfl

/-- The emission over the ports. -/
def Emission.perform : Emission → Collab → Proc Unit
  | .char ch, c => emitProc ch c
  | .first a ch, c => (readProc a c).bind fun _ c' => emitProc ch c'

/-- Emissions in order, none after one that does not end. -/
def emitEach : List Emission → Collab → Proc Unit
  | [], c => .done () c
  | e :: es, c => (e.perform c).bind fun _ c' => emitEach es c'

theorem emitEach_append (es es' : List Emission) (c : Collab) :
    emitEach (es ++ es') c = (emitEach es c).bind fun _ c' => emitEach es' c' := by
  induction es generalizing c with
  | nil => rfl
  | cons e es ih => simp only [List.cons_append, emitEach, Proc.bind_assoc, ih]

/-- No emission changes the image. -/
theorem Emission.perform_done_mem {e : Emission} {c c' : Collab} {u : Unit} (h : e.perform c = .done u c') :
    c'.mem = c.mem := by
  cases e with
  | char ch => exact emitProc_done h
  | first a ch =>
    obtain ⟨v, c₁, hr, he⟩ := Proc.bind_done h
    exact (emitProc_done he).trans (readProc_done hr).2

theorem emitEach_done_mem {es : List Emission} {c c' : Collab} {u : Unit} (h : emitEach es c = .done u c') :
    c'.mem = c.mem := by
  induction es generalizing c with
  | nil =>
    cases h
    rfl
  | cons e es ih =>
    obtain ⟨_, c₁, he, hes⟩ := Proc.bind_done h
    exact (ih hes).trans (Emission.perform_done_mem he)

/-! ## The emissions of the commands -/

/-- The two digits of the byte at `a`. -/
def byteEmissions (m : Memory) (a : Addr) : List Emission :=
  [.first a (digit (hiNib (m.read a))), .char (digit (loNib (m.read a)))]

/-- The data digits of `n` bytes from `a` on. -/
def bytesEmissions (m : Memory) (a : Addr) (n : Nat) : List Emission := (addrsFrom a n).flatMap (byteEmissions m)

/-- One line (41_framer.md R120). -/
def lineEmissions (cfg : Config) (m : Memory) (a : Addr) (k : Nat) : List Emission :=
  ([chColon] ++ hex2 (BitVec.ofNat 8 k) ++ hex4 a ++ hex2 0x00).map .char ++ bytesEmissions m a k ++
    (hex2 (cks (lineBytes a (imageBytes m a k))) ++ [cfg.newline]).map .char

/-- `write_data` (41_framer.md R121, R122). -/
def dataEmissions (cfg : Config) (m : Memory) (a : Addr) (n : Nat) : List Emission := chunks (lineEmissions cfg m) a n

/-- `write_end` (41_framer.md R123). -/
def literalEmissions : List Emission := eofLiteral.map .char

theorem bytesEmissions_succ (m : Memory) (a : Addr) (n : Nat) :
    bytesEmissions m a (n + 1) = byteEmissions m a ++ bytesEmissions m (a + 1) n := by
  simp [bytesEmissions, addrsFrom_succ]

theorem map_ch_chars (text : List Byte) : (text.map Emission.char).map Emission.ch = text := by
  simp [Function.comp_def]

theorem filterMap_addr_chars (text : List Byte) : (text.map Emission.char).filterMap Emission.addr? = [] := by
  simp [List.filterMap_map, Function.comp_def]

theorem map_ch_bytesEmissions (m : Memory) (a : Addr) (n : Nat) :
    (bytesEmissions m a n).map Emission.ch = (imageBytes m a n).flatMap hex2 := by
  simp [bytesEmissions, imageBytes_eq_map, List.map_flatMap, List.flatMap_map, byteEmissions, hex2]

theorem filterMap_addr_bytesEmissions (m : Memory) (a : Addr) (n : Nat) :
    (bytesEmissions m a n).filterMap Emission.addr? = addrsFrom a n := by
  have hbyte (b : Addr) : (byteEmissions m b).filterMap Emission.addr? = [b] := rfl
  simp [bytesEmissions, List.filterMap_flatMap, hbyte]

theorem map_ch_lineEmissions (cfg : Config) (m : Memory) (a : Addr) (k : Nat) :
    (lineEmissions cfg m a k).map Emission.ch = lineText cfg a (imageBytes m a k) := by
  simp only [lineEmissions, List.map_append, map_ch_chars, map_ch_bytesEmissions, lineText, imageBytes_length,
    List.append_assoc]

/-- FRM_DATA's emissions spell its text (41_framer.md R121). -/
theorem map_ch_dataEmissions (cfg : Config) (m : Memory) (a : Addr) (n : Nat) :
    (dataEmissions cfg m a n).map Emission.ch = dataText cfg m a n := by
  simp only [dataEmissions, map_chunks, map_ch_lineEmissions, dataText_eq_chunks]

/-- They read each byte once, in ascending order (41_framer.md R122). -/
theorem filterMap_addr_dataEmissions (cfg : Config) (m : Memory) (a : Addr) (n : Nat) :
    (dataEmissions cfg m a n).filterMap Emission.addr? = addrsFrom a n := by
  simp only [dataEmissions, filterMap_chunks, lineEmissions, List.filterMap_append, filterMap_addr_chars,
    filterMap_addr_bytesEmissions, List.nil_append, List.append_nil, chunks_addrsFrom]

theorem map_ch_literalEmissions : literalEmissions.map Emission.ch = eofLiteral := map_ch_chars eofLiteral

theorem filterMap_addr_literalEmissions : literalEmissions.filterMap Emission.addr? = [] := filterMap_addr_chars eofLiteral

/-! ## The pseudocode makes the emissions -/

theorem emitAll_eq_emitEach (text : List Byte) (c : Collab) : emitAll text c = emitEach (text.map .char) c := by
  induction text generalizing c with
  | nil => rfl
  | cons ch text ih =>
    simp only [emitAll, List.map_cons, emitEach, Emission.perform]
    exact Proc.bind_congr fun _ c' _ => ih c'

/-- The data bytes of a line, and the sum of R122 that is returned. -/
theorem emitBytes_eq {m : Memory} {c : Collab} (hc : c.mem = m) (n : Nat) (a : Addr) (acc : Byte) :
    emitBytes n a acc c =
      (emitEach (bytesEmissions m a n) c).bind fun _ c' => .done (acc + sum8 (imageBytes m a n)) c' := by
  induction n generalizing a acc c with
  | zero => simp [emitBytes, bytesEmissions, addrsFrom, emitEach, imageBytes]
  | succ n ih =>
    have himage : imageBytes m a (n + 1) = m.read a :: imageBytes m (a + 1) n := by
      simp [imageBytes_eq_map, addrsFrom_succ]
    simp only [emitBytes, bytesEmissions_succ, byteEmissions, List.cons_append, List.nil_append, emitEach,
      Emission.perform, Proc.bind_assoc, hex2, emitAll, Proc.bind_pure, himage, sum8_cons]
    refine Proc.bind_congr fun v c₁ h₁ => ?_
    obtain ⟨rfl, hm₁⟩ := readProc_done h₁
    rw [hc]
    refine Proc.bind_congr fun _ c₂ h₂ => Proc.bind_congr fun _ c₃ h₃ => ?_
    have hm₃ : c₃.mem = m := (emitProc_done h₃).trans ((emitProc_done h₂).trans (hm₁.trans hc))
    rw [ih hm₃, ← BitVec.add_assoc]

/-- The running sum of a line, negated, is the line's checksum (41_framer.md R120, R122). -/
theorem neg_lineSum_eq_cks (a : Addr) (d : List Byte) :
    -(BitVec.ofNat 8 d.length + hiByte a + loByte a + 0x00 + sum8 d) = cks (lineBytes a d) := by
  simp only [cks, lineBytes, sum8_append, sum8_cons, sum8_nil, BitVec.add_assoc]
  simp

theorem emitLine_eq {m : Memory} {c : Collab} (hc : c.mem = m) (cfg : Config) (a : Addr) (k : Nat) :
    emitLine cfg a k c = emitEach (lineEmissions cfg m a k) c := by
  simp only [emitLine, lineEmissions, emitAll_eq_emitEach, emitEach_append, Proc.bind_assoc]
  refine Proc.bind_congr fun _ c₁ h₁ => ?_
  simp only [emitBytes_eq ((emitEach_done_mem h₁).trans hc), Proc.bind_assoc, Proc.done_bind]
  have hcks := neg_lineSum_eq_cks a (imageBytes m a k)
  rw [imageBytes_length] at hcks
  rw [hcks]

theorem emitLines_eq {m : Memory} (cfg : Config) {fuel n : Nat} (a : Addr) (hfuel : (n + 15) / 16 ≤ fuel) {c : Collab}
    (hc : c.mem = m) : emitLines cfg fuel a n c = emitEach (dataEmissions cfg m a n) c := by
  induction fuel generalizing a n c with
  | zero =>
    obtain rfl : n = 0 := by omega
    rfl
  | succ fuel ih =>
    by_cases hn : n = 0
    · subst hn
      rfl
    · rw [emitLines, if_neg hn, emitLine_eq hc, dataEmissions, chunks_eq _ a hn, emitEach_append]
      exact Proc.bind_congr fun _ c' h => ih _ (by omega) ((emitEach_done_mem h).trans hc)

theorem writeData_eq (cfg : Config) (a : Addr) (n : Nat) (c : Collab) :
    writeData cfg a n c = emitEach (dataEmissions cfg c.mem a n) c := emitLines_eq cfg a le_rfl rfl

theorem writeEnd_eq (c : Collab) : writeEnd c = emitEach literalEmissions c := emitAll_eq_emitEach eofLiteral c

theorem writeAll_eq (cfg : Config) (a : Addr) (n : Nat) (c : Collab) :
    writeAll cfg a n c = emitEach (dataEmissions cfg c.mem a n ++ literalEmissions) c := by
  simp only [writeAll, writeData_eq, writeEnd_eq, emitEach_append]

/-! ## What emissions do where the ports serve them -/

/-- OUT is connected and serves the next `n` calls. -/
def Collab.outServesNext (c : Collab) (n : Nat) : Prop := c.outUp = true ∧ allServed (c.outDraws.take n)

theorem Collab.outServes.next {c : Collab} (h : c.outServes) (n : Nat) : c.outServesNext n :=
  ⟨h.1, fun d hd => h.2 d (List.mem_of_mem_take hd)⟩

/-- `c'` is `c` after the emissions `es`, all served, and nothing else (41_framer.md R125). -/
structure Collab.Emitted (c : Collab) (es : List Emission) (c' : Collab) : Prop where
  outText : c'.outText = c.outText ++ es.map Emission.ch
  outDraws : c'.outDraws = c.outDraws.drop es.length
  mem : c'.mem = c.mem
  inText : c'.inText = c.inText
  inPos : c'.inPos = c.inPos
  outUp : c'.outUp = c.outUp
  memServes : c.memServes → c'.memServes
  trace : ∃ ts, c'.trace = c.trace ++ ts ∧ readAddrs ts = es.filterMap Emission.addr?

theorem readAddrs_append (ts us : List Transaction) : readAddrs (ts ++ us) = readAddrs ts ++ readAddrs us := by
  induction ts with
  | nil => rfl
  | cons x ts ih => cases x <;> simp [readAddrs, ih]

theorem Collab.Emitted.append {c c' c'' : Collab} {es es' : List Emission} (h : c.Emitted es c') (h' : c'.Emitted es' c'') :
    c.Emitted (es ++ es') c'' := by
  obtain ⟨ts, ht, hr⟩ := h.trace
  obtain ⟨us, hu, hs⟩ := h'.trace
  exact {
    outText := by rw [h'.outText, h.outText, List.map_append, List.append_assoc]
    outDraws := by rw [h'.outDraws, h.outDraws, List.drop_drop, List.length_append]
    mem := h'.mem.trans h.mem
    inText := h'.inText.trans h.inText
    inPos := h'.inPos.trans h.inPos
    outUp := h'.outUp.trans h.outUp
    memServes := fun hm => h'.memServes (h.memServes hm)
    trace := ⟨ts ++ us, by rw [hu, ht, List.append_assoc], by rw [readAddrs_append, hr, hs, List.filterMap_append]⟩ }

theorem emitProc_served {c : Collab} (ch : Byte) (h : c.outServesNext 1) :
    ∃ c', emitProc ch c = .done () c' ∧ c.Emitted [.char ch] c' := by
  obtain ⟨hup, hds⟩ := h
  refine ⟨c.emitted ch c.outDraws.tail, ?_, rfl, by simp, rfl, rfl, rfl, rfl, id, _, rfl, rfl⟩
  rcases c.emit_cases ch with ⟨hdown, -⟩ | ⟨-, ds, hd, he⟩ | ⟨-, ds, hd, -⟩ | ⟨-, ds, hd, -⟩
  · simp [hup] at hdown
  · have htail : c.outDraws.tail = ds := by
      rcases hd with ⟨hb, ha⟩ | hb <;> simp [*]
    rw [emitProc, he, htail]
  · simp [allServed, hd] at hds
  · simp [allServed, hd] at hds

theorem readProc_served {c : Collab} (a : Addr) (h : c.memServes) :
    ∃ ds, readProc a c = .done (c.mem.read a) (c.wasRead a ds) ∧ ∀ d ∈ ds, d = MemDraw.ok := by
  obtain ⟨hup, hds⟩ := h
  unfold readProc
  rcases c.memRead_cases a with ⟨hdown, -⟩ | ⟨-, ds, hd, he⟩ | ⟨-, ds, hd, -⟩
  · simp [hup] at hdown
  · refine ⟨ds, by rw [he], fun d hmem => ?_⟩
    rcases hd with ⟨-, ha⟩ | hb
    · simp [ha] at hmem
    · exact hds d (by simp [hb, hmem])
  · have := hds .silent (by simp [hd])
    cases this

theorem Emission.perform_served {e : Emission} {c : Collab} (ho : c.outServesNext 1) (hm : e.addr? = none ∨ c.memServes) :
    ∃ c', e.perform c = .done () c' ∧ c.Emitted [e] c' := by
  cases e with
  | char ch => exact emitProc_served ch ho
  | first a ch =>
    have hserves : c.memServes := hm.resolve_left (by simp)
    obtain ⟨ds, hr, hds⟩ := readProc_served a hserves
    obtain ⟨c', he, h⟩ := emitProc_served (c := c.wasRead a ds) ch ho
    refine ⟨c', by rw [Emission.perform, hr]; exact he, ?_⟩
    obtain ⟨ts, ht, hts⟩ := h.trace
    exact { h with
      memServes := fun _ => h.memServes ⟨hserves.1, hds⟩
      trace := ⟨.memRead a (c.mem.read a) :: ts, by simp [ht], by simp [readAddrs, hts]⟩ }

/-- Served calls: every emission is made (41_framer.md R125). -/
theorem emitEach_served {es : List Emission} {c : Collab} (ho : c.outServesNext es.length)
    (hm : (∀ e ∈ es, e.addr? = none) ∨ c.memServes) : ∃ c', emitEach es c = .done () c' ∧ c.Emitted es c' := by
  induction es generalizing c with
  | nil => exact ⟨c, rfl, by simp, rfl, rfl, rfl, rfl, rfl, id, [], by simp, rfl⟩
  | cons e es ih =>
    obtain ⟨hup, hds⟩ := ho
    have ho1 : c.outServesNext 1 :=
      ⟨hup, fun d hd => hds d (List.take_subset_take_left _ (by simp) hd)⟩
    obtain ⟨c₁, he, h₁⟩ := e.perform_served ho1 (hm.imp_left fun h => h e (by simp))
    have ho2 : c₁.outServesNext es.length := by
      refine ⟨h₁.outUp.trans hup, fun d hd => hds d ?_⟩
      rw [h₁.outDraws, List.take_drop] at hd
      exact List.mem_of_mem_drop (Nat.add_comm 1 es.length ▸ hd)
    obtain ⟨c', hes, h'⟩ := ih ho2 (hm.imp (fun h e' he' => h e' (by simp [he'])) h₁.memServes)
    exact ⟨c', by rw [emitEach, he]; exact hes, h₁.append h'⟩

/-- A fault at OUT: the emission's character is not part of the output, its MemRead has been made (41_framer.md R126). -/
theorem Emission.perform_faulted {e : Emission} {c : Collab} {ds : List Draw} (hup : c.outUp = true)
    (hds : c.outDraws = .fault :: ds) (hm : e.addr? = none ∨ c.memServes) :
    ∃ c', e.perform c = .failed .emitFault c' ∧ c'.outText = c.outText ∧ c'.outDraws = ds ∧ c'.mem = c.mem := by
  cases e with
  | char ch => exact ⟨c.emitFaulted ch ds, by simp [Emission.perform, emitProc, Collab.emit, hup, hds], rfl, rfl, rfl⟩
  | first a ch =>
    obtain ⟨ms, hr, -⟩ := readProc_served a (hm.resolve_left (by simp))
    exact ⟨(c.wasRead a ms).emitFaulted ch ds,
      by simp [Emission.perform, hr, emitProc, Collab.emit, hup, hds], rfl, rfl, rfl⟩

end Sys2Proof.Machine
end

section
/-! The framer's steps make the emissions of its command, one a step, and the last one completes the command (41_framer.md R122
to R125). `Emits` says it of the framer's registers, whatever the ports answer; it is built up from the end of a command back to
its start, one lemma per kind of step. -/

namespace Sys2Proof.Machine

/-! ## One step -/

/-- `s` with the framer's registers and the collaborators replaced. -/
def State.framing (s : State) (f : Framer) (c : Collab) : State := { s with frm := f, col := c }

@[simp] theorem State.framing_frm (s : State) (f : Framer) (c : Collab) : (s.framing f c).frm = f := rfl
@[simp] theorem State.framing_col (s : State) (f : Framer) (c : Collab) : (s.framing f c).col = c := rfl
@[simp] theorem State.framing_cfg (s : State) (f : Framer) (c : Collab) : (s.framing f c).cfg = s.cfg := rfl

/-- The framer's step from `s` does over the ports what `p` does, `next` being where it is when `p` ends. -/
def State.stepsAs (s : State) (p : Proc Unit) (next : Collab → State) : Prop :=
  match p with
  | .done _ c => framerStep s = .next (next c)
  | .failed e c => ∃ f, framerStep s = .next ((s.framing f c).fail e)
  | .hung c => ∃ q, framerStep s = .next (s.awaiting c q)
  | .unfinished _ => False
  | .refused q => framerStep s = .refused (.portUnconnected q)

/-- A step that emits a character (41_framer.md R126). -/
theorem stepsAs_emitOrFail {s : State} {f : Framer} {c : Collab} {ch : Byte} {k : State → State} {next : Collab → State}
    (h : framerStep s = emitOrFail s (s.framing f c) ch k) (hk : ∀ c', k (s.framing f c') = next c') :
    s.stepsAs (emitProc ch c) next := by
  unfold emitProc
  rcases c.emit_cases ch with ⟨-, he⟩ | ⟨-, ds, -, he⟩ | ⟨-, ds, -, he⟩ | ⟨-, ds, -, he⟩ <;> rw [he] <;>
    simp only [State.stepsAs, h, emitOrFail, State.framing_col, he]
  · exact congrArg _ (hk _)
  · exact ⟨f, rfl⟩
  · exact ⟨.out, rfl⟩

/-- The step at a data byte's first digit: its MemRead, then its Emit (41_framer.md R125). -/
theorem stepsAs_dataByte {s : State} {a : Addr} {next : Collab → State} (h : framerStep s = dataByteStep s a)
    (hk : ∀ c', (s.framing (s.tookByte (s.col.mem.read a)).frm c').nextPos = next c') :
    s.stepsAs ((Emission.first a (digit (hiNib (s.col.mem.read a)))).perform s.col) next := by
  simp only [Emission.perform, readProc]
  rcases s.col.memRead_cases a with ⟨-, he⟩ | ⟨-, ds, -, he⟩ | ⟨-, ds, -, he⟩ <;> rw [he]
  · simp only [Proc.bind, State.stepsAs, h, dataByteStep, he]
  · exact stepsAs_emitOrFail (by simp only [h, dataByteStep, he]; rfl) hk
  · exact ⟨.mem, by simp only [h, dataByteStep, he]⟩

/-! ## Emissions from given registers -/

/-- Where the framer goes on with the emissions that are left, or, with none left, completes (43_control.md R196). -/
def State.goesOn (s : State) (f : Framer) (c : Collab) : List Emission → State
  | [] => (s.framing f c).complete true false .none
  | _ :: _ => s.framing f c

/-- Over an image `m`, the framer's registers `f` make the emissions, one a step, and complete with the last one. -/
def Emits (s : State) (m : Memory) : List Emission → Framer → Prop
  | [], _ => True
  | e :: es, f => ∃ f', (∀ c, c.mem = m → (s.framing f c).stepsAs (e.perform c) fun c' => s.goesOn f' c' es) ∧ Emits s m es f'

/-! ## The literal (41_framer.md R123) -/

theorem framerStep_literal {s : State} {f : Framer} (hph : f.ph = .eoflit) {ch : Byte}
    (hch : eofLiteral[f.pos.toNat]? = some ch) (c : Collab) :
    framerStep (s.framing f c) = emitOrFail (s.framing f c) (s.framing f c) ch State.nextLiteral := by
  simp only [framerStep, literalStep, State.framing_frm, hph, hch]

/-- In F_PH = EOFLIT, what is left of the literal. -/
theorem emits_literal {s : State} {m : Memory} {f : Framer} {text : List Byte} (hph : f.ph = .eoflit)
    (htext : eofLiteral.drop f.pos.toNat = text) : Emits s m (text.map .char) f := by
  induction text generalizing f with
  | nil => exact trivial
  | cons ch text ih =>
    have hch : eofLiteral[f.pos.toNat]? = some ch := by
      rw [← Nat.add_zero f.pos.toNat, ← List.getElem?_drop, htext]
      rfl
    have hlen : 11 - f.pos.toNat = text.length + 1 := by
      rw [← List.length_cons (a := ch), ← htext, List.length_drop]
      rfl
    have hstep := framerStep_literal (s := s) hph hch
    cases text with
    | nil =>
      have hpos : f.pos = 10 := BitVec.eq_of_toNat_eq (by simp at hlen ⊢; omega)
      exact ⟨f, fun c _ => stepsAs_emitOrFail (hstep c) fun c' => if_pos hpos, trivial⟩
    | cons ch' text =>
      have hpos : f.pos ≠ 10 := by
        rintro h
        simp [h] at hlen
      refine ⟨{ f with pos := f.pos + 1 }, fun c _ => stepsAs_emitOrFail (hstep c) fun c' => if_neg hpos, ih hph ?_⟩
      have hnext : (f.pos + 1).toNat = f.pos.toNat + 1 := by bv_omega
      rw [hnext, ← List.tail_drop, htext]
      rfl

/-! ## Inside a line (41_framer.md R120, R125) -/

section
variable {s : State} (hph : s.frm.ph = .line) (hm : s.frm.mode ≠ .fin)
include hph hm

theorem framerStep_inside (h0 : s.frm.pos ≠ 0) : framerStep s = insideLine s := by
  simp only [framerStep, lineStep, hph, if_neg hm, if_neg h0]

theorem framerStep_colon (h0 : s.frm.pos = 0) (hr : s.frm.rem ≠ 0) :
    framerStep s = emitOrFail s s.openLine chColon State.nextPos := by
  simp only [framerStep, lineStep, hph, if_neg hm, if_pos h0, if_neg hr]

theorem framerStep_char (h0 : s.frm.pos ≠ 0) (hd : atDataByte s.frm = false)
    (hlt : s.frm.pos.toNat < 11 + 2 * s.frm.k.toNat) :
    framerStep s = emitOrFail s s (lineChar s.frm) State.nextPos := by
  rw [framerStep_inside hph hm h0, insideLine, hd, if_neg Bool.false_ne_true, if_pos hlt]

theorem framerStep_first (h0 : s.frm.pos ≠ 0) (hd : atDataByte s.frm = true) :
    framerStep s = dataByteStep s (dataByteAddr s.frm) := by
  rw [framerStep_inside hph hm h0, insideLine, if_pos hd]

theorem framerStep_newline (h0 : s.frm.pos ≠ 0) (hd : atDataByte s.frm = false)
    (hpos : s.frm.pos.toNat = 11 + 2 * s.frm.k.toNat) :
    framerStep s = emitOrFail s s s.cfg.newline State.closeLine := by
  rw [framerStep_inside hph hm h0, insideLine, hd, if_neg Bool.false_ne_true, if_neg (by omega), if_pos hpos]

end

section
variable {s : State} {m : Memory} {f : Framer} {es : List Emission}

/-- A character of a line that needs no MemRead. -/
theorem emits_char (hph : f.ph = .line) (hm : f.mode ≠ .fin) (h0 : f.pos ≠ 0) (hd : atDataByte f = false)
    (hlt : f.pos.toNat < 11 + 2 * f.k.toNat) (hne : es ≠ []) (h : Emits s m es { f with pos := f.pos + 1 }) :
    Emits s m (.char (lineChar f) :: es) f := by
  refine ⟨{ f with pos := f.pos + 1 }, fun c _ => stepsAs_emitOrFail (f := f) (k := State.nextPos) ?_ fun c' => ?_, h⟩
  · exact framerStep_char (s := s.framing f c) hph hm h0 hd hlt
  · cases es with
    | nil => exact absurd rfl hne
    | cons e es => rfl

/-- The first digit of a data byte. -/
theorem emits_first (hph : f.ph = .line) (hm : f.mode ≠ .fin) (h0 : f.pos ≠ 0) (hd : atDataByte f = true) {a : Addr}
    (ha : dataByteAddr f = a) (hne : es ≠ [])
    (h : Emits s m es { f with d := m.read a, acc := f.acc + m.read a, pos := f.pos + 1 }) :
    Emits s m (.first a (digit (hiNib (m.read a))) :: es) f := by
  refine ⟨{ f with d := m.read a, acc := f.acc + m.read a, pos := f.pos + 1 }, fun c hc => ?_, h⟩
  subst hc
  refine stepsAs_dataByte (s := s.framing f c) (a := a) ?_ fun c' => ?_
  · exact ha ▸ framerStep_first (s := s.framing f c) hph hm h0 hd
  · cases es with
    | nil => exact absurd rfl hne
    | cons e es => rfl

/-- Characters 1 to 8. -/
theorem emits_header {text : List Byte} (hph : f.ph = .line) (hm : f.mode ≠ .fin) (h0 : f.pos ≠ 0) (h9 : f.pos.toNat ≤ 9)
    (hne : es ≠ []) (htext : (headerText f).drop (f.pos.toNat - 1) = text) (h : Emits s m es { f with pos := 9 }) :
    Emits s m (text.map .char ++ es) f := by
  have hpos : f.pos.toNat ≠ 0 := fun hz => h0 (BitVec.eq_of_toNat_eq hz)
  have hlen : 8 - (f.pos.toNat - 1) = text.length := by
    rw [← htext, List.length_drop]
    rfl
  induction text generalizing f with
  | nil =>
    have hp : f.pos = 9 := BitVec.eq_of_toNat_eq (by simp at hlen ⊢; omega)
    rw [← hp] at h
    exact h
  | cons ch text ih =>
    rw [List.length_cons] at hlen
    have hnext : (f.pos + 1).toNat = f.pos.toNat + 1 := by bv_omega
    have hch : lineChar f = ch := by
      have : (headerText f)[f.pos.toNat - 1]? = some ch := by
        rw [← Nat.add_zero (f.pos.toNat - 1), ← List.getElem?_drop, htext]
        rfl
      simp only [lineChar, if_pos (show f.pos.toNat < 9 by omega), List.getD_eq_getElem?_getD, this, Option.getD_some]
    have hd : atDataByte f = false := by
      simp only [atDataByte, Bool.and_eq_false_iff, decide_eq_false_iff_not]
      omega
    have hdrop : (headerText f).drop (f.pos.toNat + 1 - 1) = text := by
      rw [show f.pos.toNat + 1 - 1 = f.pos.toNat - 1 + 1 by omega, ← List.tail_drop, htext]
      rfl
    rw [List.map_cons, List.cons_append, ← hch]
    refine emits_char hph hm h0 hd (by omega) (by simp [hne]) (ih hph hm ?_ ?_ ?_ h ?_ ?_)
    · exact fun hz => by rw [show f.pos + 1 = 0 from hz] at hnext; cases hnext
    · simp only [hnext]
      omega
    · simp only [hnext]
      exact hdrop
    · simp only [hnext]
      omega
    · simp only [hnext]
      omega

theorem bytesEmissions_succ_append (m : Memory) (a : Addr) (n : Nat) (es : List Emission) :
    bytesEmissions m a (n + 1) ++ es =
      .first a (digit (hiNib (m.read a))) :: .char (digit (loNib (m.read a))) :: (bytesEmissions m (a + 1) n ++ es) := by
  rw [bytesEmissions_succ, List.append_assoc]
  rfl

/-- The data bytes from byte `i` on: F_ACC sums them up (41_framer.md R122). -/
theorem emits_bytes {a : Addr} {i j : Nat} (hph : f.ph = .line) (hm : f.mode ≠ .fin) (hpos : f.pos.toNat = 9 + 2 * i)
    (hj : i + j = f.k.toNat) (hk : f.k.toNat ≤ 16) (ha : f.addr + BitVec.ofNat 16 i = a) (hne : es ≠ [])
    (h : ∀ d, Emits s m es
      { f with d := d, acc := f.acc + sum8 (imageBytes m a j), pos := BitVec.ofNat 6 (9 + 2 * f.k.toNat) }) :
    Emits s m (bytesEmissions m a j ++ es) f := by
  induction j generalizing f i a with
  | zero =>
    have hp : BitVec.ofNat 6 (9 + 2 * f.k.toNat) = f.pos := BitVec.eq_of_toNat_eq (by rw [BitVec.toNat_ofNat]; omega)
    simpa [imageBytes, hp, bytesEmissions, addrsFrom] using h f.d
  | succ j ih =>
    let f₁ : Framer := { f with d := m.read a, acc := f.acc + m.read a, pos := f.pos + 1 }
    have hpos₁ : f₁.pos.toNat = 10 + 2 * i := by simp only [f₁]; bv_omega
    have hpos₂ : (f₁.pos + 1).toNat = 9 + 2 * (i + 1) := by bv_omega
    have hhi : atDataByte f = true := by
      simp only [atDataByte, Bool.and_eq_true, decide_eq_true_eq, beq_iff_eq]
      omega
    have hlo : atDataByte f₁ = false := by
      simp only [atDataByte, hpos₁, Bool.and_eq_false_iff, decide_eq_false_iff_not, beq_eq_false_iff_ne]
      omega
    have haddr : dataByteAddr f = a := by rw [dataByteAddr, hpos, show (9 + 2 * i - 9) / 2 = i by omega, ha]
    have hnext : f.addr + BitVec.ofNat 16 (i + 1) = a + 1 := by rw [BitVec.ofNat_add, ← BitVec.add_assoc, ha]; rfl
    have hch : lineChar f₁ = digit (loNib (m.read a)) := by
      simp only [lineChar, hpos₁, if_neg (show ¬ 10 + 2 * i < 9 by omega),
        if_pos (show 10 + 2 * i < 9 + 2 * f₁.k.toNat by simp only [f₁]; omega), f₁]
    have himage : f.acc + sum8 (imageBytes m a (j + 1)) = f₁.acc + sum8 (imageBytes m (a + 1) j) := by
      simp only [imageBytes_eq_map, addrsFrom_succ, List.map_cons, sum8_cons, f₁, BitVec.add_assoc]
    have h0 : f.pos ≠ 0 := fun hz => by simp [hz] at hpos; omega
    have h0₁ : f₁.pos ≠ 0 := fun hz => by simp [hz] at hpos₁; omega
    rw [bytesEmissions_succ_append, ← hch]
    refine emits_first hph hm h0 hhi haddr (by simp) (emits_char (f := f₁) hph hm h0₁ hlo ?_ (by simp [hne]) ?_)
    · simp only [hpos₁, f₁]
      omega
    · refine ih (f := { f₁ with pos := f₁.pos + 1 }) hph hm hpos₂ (by simp only [f₁]; omega) hk hnext fun d => ?_
      have hd := h d
      rw [himage] at hd
      exact hd

/-- The two digits of the checksum (41_framer.md R120). -/
theorem emits_checksum (hph : f.ph = .line) (hm : f.mode ≠ .fin) (hpos : f.pos.toNat = 9 + 2 * f.k.toNat)
    (hk : f.k.toNat ≤ 16) (hne : es ≠ []) (h : Emits s m es { f with pos := BitVec.ofNat 6 (11 + 2 * f.k.toNat) }) :
    Emits s m ((hex2 (-f.acc)).map .char ++ es) f := by
  let f₁ : Framer := { f with pos := f.pos + 1 }
  have hpos₁ : f₁.pos.toNat = 10 + 2 * f.k.toNat := by simp only [f₁]; bv_omega
  have hpos₂ : BitVec.ofNat 6 (11 + 2 * f.k.toNat) = f₁.pos + 1 :=
    BitVec.eq_of_toNat_eq (by rw [BitVec.toNat_ofNat]; bv_omega)
  have hhi : atDataByte f = false := by simp [atDataByte, hpos]
  have hlo : atDataByte f₁ = false := by
    simp only [atDataByte, hpos₁, Bool.and_eq_false_iff, decide_eq_false_iff_not, f₁]
    omega
  have hchHi : lineChar f = digit (hiNib (-f.acc)) := by
    simp only [lineChar, hpos, if_neg (show ¬ 9 + 2 * f.k.toNat < 9 by omega), lt_irrefl, if_false, if_true]
  have hchLo : lineChar f₁ = digit (loNib (-f.acc)) := by
    simp only [lineChar, hpos₁, if_neg (show ¬ 10 + 2 * f.k.toNat < 9 by omega), f₁,
      if_neg (show ¬ 10 + 2 * f.k.toNat < 9 + 2 * f.k.toNat by omega),
      if_neg (show ¬ 10 + 2 * f.k.toNat = 9 + 2 * f.k.toNat by omega)]
  have h0 : f.pos ≠ 0 := fun hz => by simp [hz] at hpos; omega
  have h0₁ : f₁.pos ≠ 0 := fun hz => by simp [hz] at hpos₁; omega
  rw [hex2, List.map_cons, List.map_cons, List.map_nil, ← hchHi, ← hchLo]
  refine emits_char hph hm h0 hhi (by omega) (by simp) (emits_char hph hm h0₁ hlo ?_ hne ?_)
  · simp only [hpos₁, f₁]
    omega
  · rw [hpos₂] at h
    exact h

/-! ## The end of a line and the lines of a command (41_framer.md R122, R124) -/

/-- What follows the data text: nothing in FRM_DATA, the literal in FRM_ALL. -/
def FMode.closing : FMode → List Emission
  | .data => []
  | .fin => []
  | .all => literalEmissions

/-- The framer's registers after the NEWLINE of a line (41_framer.md R125). -/
def Framer.lineClosed (f : Framer) : Framer := { f with addr := f.addr + f.k.zeroExtend 16, pos := 0 }

/-- NEWLINE, after which the next line is opened, the literal begins, or the command completes. -/
theorem emits_newline (hph : f.ph = .line) (hm : f.mode ≠ .fin) (hpos : f.pos.toNat = 11 + 2 * f.k.toNat)
    (h : if f.rem = 0 then es = f.mode.closing else es ≠ [] ∧ Emits s m es f.lineClosed) :
    Emits s m (.char s.cfg.newline :: es) f := by
  have h0 : f.pos ≠ 0 := fun hz => by simp [hz] at hpos; omega
  have hd : atDataByte f = false := by
    simp only [atDataByte, Bool.and_eq_false_iff, decide_eq_false_iff_not]
    omega
  have hstep (c : Collab) :
      framerStep (s.framing f c) = emitOrFail (s.framing f c) (s.framing f c) s.cfg.newline State.closeLine :=
    framerStep_newline (s := s.framing f c) hph hm h0 hd hpos
  by_cases hr : f.rem = 0
  · rw [if_pos hr] at h
    subst h
    cases hmode : f.mode with
    | data =>
      refine ⟨f.lineClosed, fun c _ => stepsAs_emitOrFail (hstep c) fun c' => ?_, trivial⟩
      exact (if_pos hr).trans (if_pos hmode)
    | fin => exact absurd hmode hm
    | all =>
      refine ⟨{ f.lineClosed with mode := .all, ph := .eoflit }, fun c _ => stepsAs_emitOrFail (hstep c) fun c' => ?_,
        emits_literal rfl rfl⟩
      exact (if_pos hr).trans (if_neg (by simp [hmode]))
  · rw [if_neg hr] at h
    obtain ⟨hne, h⟩ := h
    refine ⟨f.lineClosed, fun c _ => stepsAs_emitOrFail (hstep c) fun c' => ?_, h⟩
    cases es with
    | nil => exact absurd rfl hne
    | cons e es => exact if_neg hr

/-- The framer's registers after the ':' of a line (41_framer.md R122). -/
def Framer.lineOpened (f : Framer) : Framer :=
  { f with
    k := chunkLen f.rem
    rem := f.rem - (chunkLen f.rem).zeroExtend 32
    acc := (chunkLen f.rem).zeroExtend 8 + hiByte f.addr + loByte f.addr + 0x00
    pos := 1 }

/-- The chunk's length as a byte and as an address. -/
theorem chunkLen_zeroExtend (rem : Word) (w : Nat) :
    (chunkLen rem).zeroExtend w = BitVec.ofNat w (min 16 rem.toNat) := by
  apply BitVec.eq_of_toNat_eq
  simp only [BitVec.toNat_setWidth, chunkLen_toNat, BitVec.toNat_ofNat]

/-- One whole line, from its ':' (41_framer.md R120, R122). -/
theorem emits_line {k : Nat} (hk : k = min 16 f.rem.toNat) (hph : f.ph = .line) (hm : f.mode ≠ .fin) (hpos : f.pos = 0)
    (hr : f.rem ≠ 0)
    (h : ∀ g : Framer, g.ph = .line → g.mode = f.mode → g.addr = f.addr → g.k = chunkLen f.rem →
      g.rem = f.lineOpened.rem → g.pos.toNat = 11 + 2 * g.k.toNat → Emits s m (.char s.cfg.newline :: es) g) :
    Emits s m (lineEmissions s.cfg m f.addr k ++ es) f := by
  have hlen : (chunkLen f.rem).toNat = k := hk ▸ chunkLen_toNat _
  have hk8 : BitVec.ofNat 8 k = (chunkLen f.rem).zeroExtend 8 := hk ▸ (chunkLen_zeroExtend f.rem 8).symm
  have hcks : cks (lineBytes f.addr (imageBytes m f.addr k)) = -(f.lineOpened.acc + sum8 (imageBytes m f.addr k)) := by
    rw [← neg_lineSum_eq_cks, imageBytes_length, hk8]
    rfl
  have hshape : lineEmissions s.cfg m f.addr k ++ es =
      .char chColon :: ((headerText f.lineOpened).map .char ++ (bytesEmissions m f.addr k ++
        ((hex2 (-(f.lineOpened.acc + sum8 (imageBytes m f.addr k)))).map .char ++ .char s.cfg.newline :: es))) := by
    simp only [lineEmissions, hcks, hk8, headerText, Framer.lineOpened, List.append_assoc, List.map_append, List.map_cons,
      List.map_nil, List.cons_append, List.nil_append]
  rw [hshape]
  refine ⟨f.lineOpened, fun c _ => ?_, ?_⟩
  · refine stepsAs_emitOrFail (f := (s.framing f c).openLine.frm) (c := c) (k := State.nextPos)
      (framerStep_colon (s := s.framing f c) hph hm hpos hr) fun c' => ?_
    simp [State.nextPos, State.openLine, State.framing, State.goesOn, headerText, hex2, hpos, Framer.lineOpened]
  · refine emits_header (f := f.lineOpened) hph hm (by simp [Framer.lineOpened]) (by simp [Framer.lineOpened]) (by simp) rfl ?_
    refine emits_bytes (f := { f.lineOpened with pos := 9 }) (i := 0) hph hm rfl (by simp [Framer.lineOpened, hlen])
      (by simp only [Framer.lineOpened]; omega) (by simp [Framer.lineOpened]) (by simp) fun d => ?_
    let g : Framer :=
      { f.lineOpened with
        d := d
        acc := f.lineOpened.acc + sum8 (imageBytes m f.addr k)
        pos := BitVec.ofNat 6 (9 + 2 * f.lineOpened.k.toNat) }
    refine emits_checksum (f := g) hph hm ?_ ?_ (by simp) (h _ hph rfl rfl rfl rfl ?_)
    · simp only [g, BitVec.toNat_ofNat, Framer.lineOpened]
      omega
    · simp only [g, Framer.lineOpened]
      omega
    · simp only [g, BitVec.toNat_ofNat, Framer.lineOpened]
      omega

/-- The lines of a command, from the head of its loop, and what follows them (41_framer.md R122, R124). -/
theorem emits_lines {a : Addr} {n : Nat} (hn : n ≠ 0) (hph : f.ph = .line) (hm : f.mode ≠ .fin) (hpos : f.pos = 0)
    (ha : f.addr = a) (hrem : f.rem.toNat = n) : Emits s m (dataEmissions s.cfg m a n ++ f.mode.closing) f := by
  induction a, n using chunk_induction generalizing f with
  | zero a => exact absurd rfl hn
  | chunk a n hn' ih =>
    have hr : f.rem ≠ 0 := fun hz => hn' (by simp [← hrem, hz])
    subst ha hrem
    rw [dataEmissions, chunks_eq _ _ hn', List.append_assoc]
    refine emits_line rfl hph hm hpos hr fun g hgph hgm hga hgk hgr hgpos => ?_
    have hgm' : g.mode ≠ .fin := hgm ▸ hm
    refine emits_newline hgph hgm' hgpos ?_
    have hleft : g.rem.toNat = f.rem.toNat - min 16 f.rem.toNat := by
      rw [hgr]
      exact openLine_rem_toNat (s.framing f s.col)
    by_cases hz : g.rem = 0
    · have hz' : f.rem.toNat - min 16 f.rem.toNat = 0 := by rw [← hleft, hz]; rfl
      rw [if_pos hz, hz', chunks_zero, hgm, List.nil_append]
    · have hz' : f.rem.toNat - min 16 f.rem.toNat ≠ 0 := fun h => hz (BitVec.eq_of_toNat_eq (hleft.trans h))
      rw [if_neg hz, ← hgm]
      refine ⟨?_, ih (f := g.lineClosed) hz' hgph hgm' rfl ?_ hleft⟩
      · rw [chunks_eq _ _ hz']
        simp [lineEmissions]
      · simp only [Framer.lineClosed, hga, hgk, chunkLen_zeroExtend]

/-- FRM_DATA with LEN = 0 completes in a step of its own (41_framer.md R122, R125). -/
theorem framerStep_emptyData (hph : s.frm.ph = .line) (hm : s.frm.mode = .data) (hpos : s.frm.pos = 0) (hr : s.frm.rem = 0) :
    framerStep s = .next (s.complete true false .none) := by
  simp [framerStep, lineStep, hph, hm, hpos, hr]

/-- FRM_ALL with LEN = 0 emits the literal alone (41_framer.md R124). -/
theorem emits_emptyAll (hph : f.ph = .line) (hm : f.mode = .all) (hpos : f.pos = 0) (hr : f.rem = 0) :
    Emits s m literalEmissions f := by
  refine ⟨{ f with mode := .all, ph := .eoflit, pos := 1 }, fun c _ => ?_, emits_literal rfl rfl⟩
  refine stepsAs_emitOrFail (f := { f with mode := .all, ph := .eoflit, pos := 0 }) (c := c) (k := State.nextLiteral) ?_
    fun c' => rfl
  simp [framerStep, hph, lineStep, hm, hpos, hr, literalStep, eofLiteral, State.framing, State.frameLiteral]

end

end Sys2Proof.Machine
end

section
/-! The framer's commands as whole operations (41_framer.md R122 to R126): an accepted command makes the emissions of its text, so
its run is the run of `Emits`, whatever the ports answer; served it completes, at a fault it fails, and in every case it settles
to the pseudocode. -/

namespace Sys2Proof.Machine

/-! ## Runs of emissions -/

/-- A framer command is running, undisturbed and with no transaction outstanding. -/
structure State.RunsFramer (s : State) : Prop where
  undisturbed : s.undisturbed
  busy : s.status.busy = true
  op : s.op.isFramer = true
  waiting : s.waiting = none

theorem State.RunsFramer.step {s : State} (hs : s.RunsFramer) (f : Framer) (c : Collab) :
    step (s.framing f c) = framerStep (s.framing f c) := by
  have hop := hs.op
  have hstep : operationStep (s.framing f c) = framerStep (s.framing f c) := by
    cases ho : s.op <;> simp only [ho, Op.isFramer, Bool.false_eq_true] at hop <;>
      simp only [operationStep, State.framing, ho]
  rw [step_undisturbed (s := s.framing f c) hs.undisturbed hs.busy, ihxcStep_free (s := s.framing f c) hs.waiting, hstep]

theorem State.goesOn_of_ne_nil (s : State) (f : Framer) (c : Collab) {es : List Emission} (h : es ≠ []) :
    s.goesOn f c es = s.framing f c := by
  cases es with
  | nil => exact absurd rfl h
  | cons => rfl

section
variable {s : State} (hs : s.RunsFramer) {f : Framer} {c : Collab}
include hs

/-- After some of the emissions, all ended, the machine is where the rest begins. -/
theorem Emits.run_prefix {es es' : List Emission} (h : Emits s c.mem (es ++ es') f) (hne : es ++ es' ≠ []) {c' : Collab}
    (hd : emitEach es c = .done () c') :
    ∃ f', run es.length (s.framing f c) = .next (s.goesOn f' c' es') ∧ Emits s c'.mem es' f' := by
  induction es generalizing f c with
  | nil =>
    cases hd
    exact ⟨f, congrArg _ (s.goesOn_of_ne_nil f c' hne).symm, h⟩
  | cons e es ih =>
    obtain ⟨f₁, hsteps, h₁⟩ := h
    obtain ⟨_, c₁, he, hes⟩ := Proc.bind_done hd
    have hstep : step (s.framing f c) = .next (s.goesOn f₁ c₁ (es ++ es')) := by
      have := hsteps c rfl
      rw [he] at this
      exact (hs.step f c).trans this
    rw [List.length_cons, run_succ hstep]
    by_cases hrest : es ++ es' = []
    · obtain ⟨rfl, rfl⟩ := List.append_eq_nil_iff.mp hrest
      cases hes
      exact ⟨f₁, rfl, trivial⟩
    · rw [s.goesOn_of_ne_nil f₁ c₁ hrest]
      exact ih (Emission.perform_done_mem he ▸ h₁) hrest hes

/-- All emissions ended: as many steps, busy until the last one completes the command (41_framer.md R125). -/
theorem Emits.run_all {es : List Emission} (h : Emits s c.mem es f) (hne : es ≠ []) {c' : Collab}
    (hd : emitEach es c = .done () c') :
    (∃ f', run es.length (s.framing f c) = .next ((s.framing f' c').complete true false .none)) ∧
      ∀ m < es.length, ∃ v, run m (s.framing f c) = .next v ∧ v.status.busy = true := by
  constructor
  · obtain ⟨f', hrun, -⟩ := Emits.run_prefix hs (es' := []) (by rwa [List.append_nil]) (by rwa [List.append_nil]) hd
    exact ⟨f', hrun⟩
  · intro m hm
    have hsplit := List.take_append_drop m es
    have hdrop : es.drop m ≠ [] := by simpa using hm
    rw [← hsplit, emitEach_append] at hd
    obtain ⟨_, c₁, htake, -⟩ := Proc.bind_done hd
    obtain ⟨f', hrun, -⟩ := Emits.run_prefix hs (by rwa [hsplit]) (by rwa [hsplit]) htake
    rw [List.length_take_of_le hm.le, s.goesOn_of_ne_nil f' c₁ hdrop] at hrun
    exact ⟨_, hrun, hs.busy⟩

/-- An emission that faults after others that ended: the command fails in that step (41_framer.md R126). -/
theorem Emits.run_fault {es es' : List Emission} {e : Emission} (h : Emits s c.mem (es ++ e :: es') f) {c' c'' : Collab}
    {k : FailKind} (hd : emitEach es c = .done () c') (hf : e.perform c' = .failed k c'') :
    ∃ f', run (es.length + 1) (s.framing f c) = .next ((s.framing f' c'').fail k) := by
  obtain ⟨f₁, hrun, f₂, hsteps, -⟩ := Emits.run_prefix hs h (by simp) hd
  have hstep := hsteps c' rfl
  rw [hf] at hstep
  obtain ⟨f', hstep⟩ := hstep
  exact ⟨f', (run_add hrun 1).trans (run_succ ((hs.step f₁ c').trans hstep) 0)⟩

end

/-- Settling is settled one step earlier, where the step goes on with the operation. -/
theorem settlesTo_of_step {α : Type} {s t : State} {p : Proc α} {eofOf : α → Bool} (h : step s = .next t)
    (hst : t.status = s.status) (hop : t.op = s.op) (hh : t.sameHost s) (hp : settlesTo t p eofOf) : settlesTo s p eofOf := by
  cases p with
  | done a c =>
    obtain ⟨n, u, hrun, hc, hu, hi, hs⟩ := hp
    exact ⟨n + 1, u, (run_succ h n).trans hrun, hc, hst ▸ hu, hi, hs.trans hh⟩
  | failed k c =>
    obtain ⟨n, u, hrun, hc, hu, hi, hs⟩ := hp
    exact ⟨n + 1, u, (run_succ h n).trans hrun, hc, hst ▸ hu, hi, hs.trans hh⟩
  | hung c =>
    obtain ⟨n, u, hrun, hc, hu, ho, hs, hstays⟩ := hp
    exact ⟨n + 1, u, (run_succ h n).trans hrun, hc, hu.trans hst, ho.trans hop, hs.trans hh, hstays⟩
  | unfinished c =>
    obtain ⟨n, u, hrun, hc, hu, ho, hs⟩ := hp
    exact ⟨n + 1, u, (run_succ h n).trans hrun, hc, hu.trans hst, ho.trans hop, hs.trans hh⟩
  | refused q =>
    obtain ⟨n, hrun⟩ := hp
    exact ⟨n + 1, (run_succ h n).trans hrun⟩

/-- A command that completes in its next step settles. -/
theorem settlesTo_of_completes {s : State} {f : Framer} {c : Collab}
    (h : step s = .next ((s.framing f c).complete true false .none)) : settlesTo s (.done () c) fun _ => false :=
  ⟨1, _, run_succ h 0, rfl, rfl, ⟨rfl, rfl, rfl, rfl, rfl⟩, ⟨rfl, rfl, rfl, rfl, rfl, rfl⟩⟩

/-- Whatever the ports answer, a run of emissions settles to what they do over the ports (43_control.md R196). -/
theorem Emits.settles {s : State} (hs : s.RunsFramer) {es : List Emission} {f : Framer} {c : Collab}
    (h : Emits s c.mem es f) (hne : es ≠ []) : settlesTo (s.framing f c) (emitEach es c) fun _ => false := by
  induction es generalizing f c with
  | nil => exact absurd rfl hne
  | cons e es ih =>
    obtain ⟨f₁, hsteps, h₁⟩ := h
    have hstep := hsteps c rfl
    rw [emitEach]
    cases he : e.perform c <;> rw [he] at hstep
    case done a c₁ =>
      have hnext : step (s.framing f c) = .next (s.goesOn f₁ c₁ es) := (hs.step f c).trans hstep
      by_cases hrest : es = []
      · subst hrest
        exact settlesTo_of_completes hnext
      · rw [s.goesOn_of_ne_nil f₁ c₁ hrest] at hnext
        exact settlesTo_of_step hnext rfl rfl ⟨rfl, rfl, rfl, rfl, rfl, rfl⟩ (ih (Emission.perform_done_mem he ▸ h₁) hrest)
    case failed k c₁ =>
      obtain ⟨f₂, hstep⟩ := hstep
      exact ⟨1, _, run_succ ((hs.step f c).trans hstep) 0, rfl, rfl, ⟨rfl, rfl, rfl, rfl, rfl⟩, State.fail_sameHost _ _⟩
    case hung c₁ =>
      obtain ⟨q, hstep⟩ := hstep
      have hstays := run_waiting (s := (s.framing f c).awaiting c₁ q) hs.undisturbed hs.busy rfl
      refine ⟨1, _, run_succ ((hs.step f c).trans hstep) 0, rfl, rfl, rfl, State.awaiting_sameHost _ _ _, ?_⟩
      rw [step_undisturbed (s := (s.framing f c).awaiting c₁ q) hs.undisturbed hs.busy]
      exact ihxcStep_waiting rfl
    case unfinished => exact hstep.elim
    case refused q => exact ⟨1, by simp only [run, (hs.step f c).trans hstep]⟩

/-! ## Acceptance -/

theorem literalEmissions_ne_nil : literalEmissions ≠ [] := by simp [literalEmissions, eofLiteral]

/-- `t` is `s` with the framer command `i` accepted (43_control.md R190). -/
structure State.Accepts (s : State) (i : Instr) (t : State) : Prop where
  exec : exec i s = .next t
  runs : t.RunsFramer
  status : t.status = { Status.cleared with busy := true }
  prs : t.prs = s.prs
  col : t.col = s.col
  host : t.sameHost s

section
variable {s : State} (hb : s.status.busy = false) (hu : s.undisturbed)
include hb hu

theorem accepts_frmData : s.Accepts .frmData ((s.accepted.begun .frmData).frameArgs .data) :=
  ⟨acceptOrDrop_idle hb fun t => (t.begun .frmData).frameArgs .data,
    ⟨hu, rfl, rfl, rfl⟩, rfl, rfl, rfl, ⟨rfl, rfl, rfl, rfl, rfl, rfl⟩⟩

theorem accepts_frmEnd : s.Accepts .frmEnd ((s.accepted.begun .frmEnd).frameLiteral .fin) :=
  ⟨acceptOrDrop_idle hb fun t => (t.begun .frmEnd).frameLiteral .fin,
    ⟨hu, rfl, rfl, rfl⟩, rfl, rfl, rfl, ⟨rfl, rfl, rfl, rfl, rfl, rfl⟩⟩

theorem accepts_frmAll : s.Accepts .frmAll ((s.accepted.begun .frmAll).frameArgs .all) :=
  ⟨acceptOrDrop_idle hb fun t => (t.begun .frmAll).frameArgs .all,
    ⟨hu, rfl, rfl, rfl⟩, rfl, rfl, rfl, ⟨rfl, rfl, rfl, rfl, rfl, rfl⟩⟩

/-- FRM_DATA with LEN = 0 completes in a step of its own (41_framer.md R122, R125). -/
theorem step_emptyData (h : lenField s.cfg s.len = 0) :
    step ((s.accepted.begun .frmData).frameArgs .data) =
      .next (((s.accepted.begun .frmData).frameArgs .data).complete true false .none) := by
  have hstep := (accepts_frmData hb hu).runs.step ((s.accepted.begun .frmData).frameArgs .data).frm s.col
  exact hstep.trans (framerStep_emptyData rfl rfl rfl h)

/-- Every other framer command makes the emissions `es`, one a step (41_framer.md R125). -/
def State.Frames (s : State) (i : Instr) (es : List Emission) : Prop :=
  es ≠ [] ∧ ∃ t, s.Accepts i t ∧ Emits t s.col.mem es t.frm

theorem frames_frmData (h : (lenField s.cfg s.len).toNat ≠ 0) :
    s.Frames .frmData (dataEmissions s.cfg s.col.mem s.addr (lenField s.cfg s.len).toNat) := by
  let t := (s.accepted.begun .frmData).frameArgs .data
  have hemits : Emits t s.col.mem (dataEmissions s.cfg s.col.mem s.addr (lenField s.cfg s.len).toNat ++ []) t.frm :=
    emits_lines (f := t.frm) h rfl FMode.noConfusion rfl rfl rfl
  rw [List.append_nil] at hemits
  exact ⟨by simp [dataEmissions, chunks_eq _ _ h, lineEmissions], t, accepts_frmData hb hu, hemits⟩

theorem frames_frmEnd : s.Frames .frmEnd literalEmissions :=
  ⟨literalEmissions_ne_nil, _, accepts_frmEnd hb hu, emits_literal rfl rfl⟩

theorem frames_frmAll :
    s.Frames .frmAll (dataEmissions s.cfg s.col.mem s.addr (lenField s.cfg s.len).toNat ++ literalEmissions) := by
  let t := (s.accepted.begun .frmAll).frameArgs .all
  refine ⟨List.append_ne_nil_of_right_ne_nil _ literalEmissions_ne_nil, t, accepts_frmAll hb hu, ?_⟩
  by_cases h : (lenField s.cfg s.len).toNat = 0
  · have hrem : lenField s.cfg s.len = 0 := BitVec.eq_of_toNat_eq h
    rw [h]
    exact emits_emptyAll (f := t.frm) rfl rfl rfl hrem
  · exact emits_lines (f := t.frm) h rfl FMode.noConfusion rfl rfl rfl

end

/-! ## Success -/

/-- Command `i` completes with OK = 1 after `steps` steps and not before; it appends `text`, reads the cells `addrs` in order, and
leaves the rest of the image, the input, the host's and the parser's registers alone (41_framer.md R122 to R125). -/
def State.CompletesFraming (s : State) (i : Instr) (steps : Nat) (text : List Byte) (addrs : List Addr) : Prop :=
  ∃ t u ts, exec i s = .next t ∧ run steps t = .next u ∧
    (∀ m < steps, ∃ v, run m t = .next v ∧ v.status.busy = true) ∧
    u.status = { busy := false, done := true, ok := true, eof := false, err := .none, drop := false } ∧
    u.idle ∧ u.sameHost s ∧ u.prs = { s.prs with ph := .idle } ∧
    u.col.outText = s.col.outText ++ text ∧ u.col.mem = s.col.mem ∧
    u.col.inText = s.col.inText ∧ u.col.inPos = s.col.inPos ∧
    u.col.trace = s.col.trace ++ ts ∧ readAddrs ts = addrs

theorem State.Accepts.completesFraming {s t : State} {i : Instr} (ha : s.Accepts i t) {steps : Nat} {f : Framer}
    {c : Collab} {es : List Emission} (hrun : run steps t = .next ((t.framing f c).complete true false .none))
    (hbusy : ∀ m < steps, ∃ v, run m t = .next v ∧ v.status.busy = true) (hc : s.col.Emitted es c) :
    s.CompletesFraming i steps (es.map Emission.ch) (es.filterMap Emission.addr?) := by
  obtain ⟨ts, htrace, hreads⟩ := hc.trace
  exact ⟨t, _, ts, ha.exec, hrun, hbusy, congrArg (·.completed true false .none) ha.status, ⟨rfl, rfl, rfl, rfl, rfl⟩,
    (State.complete_sameHost _ _ _ _).trans ha.host, congrArg (fun p : Parser => { p with ph := .idle }) ha.prs, hc.outText,
    hc.mem, hc.inText, hc.inPos, htrace, hreads⟩

theorem State.Frames.completesFraming {s : State} {i : Instr} {es : List Emission} (h : s.Frames i es)
    (ho : s.col.outServes) (hm : (∀ e ∈ es, e.addr? = none) ∨ s.col.memServes) :
    s.CompletesFraming i es.length (es.map Emission.ch) (es.filterMap Emission.addr?) := by
  obtain ⟨hne, t, ha, hemits⟩ := h
  obtain ⟨c, hdone, hc⟩ := emitEach_served (ho.next es.length) hm
  rw [← ha.col] at hemits hdone
  obtain ⟨⟨f, hrun⟩, hbusy⟩ := Emits.run_all ha.runs hemits hne hdone
  exact ha.completesFraming hrun hbusy hc

theorem addr?_literalEmissions {e : Emission} (he : e ∈ literalEmissions) : e.addr? = none := by
  obtain ⟨ch, -, rfl⟩ := List.mem_map.mp he
  rfl

/-- Settles O41: FRM_DATA makes its emissions, one a step, or, with LEN = 0, completes in its first step. -/
theorem frmDataEmitsTheDataText : Obligations.FrmDataEmitsTheDataText := by
  intro s n text hb hu ho hm hn htext
  subst hn htext
  rw [← map_ch_dataEmissions, ← filterMap_addr_dataEmissions s.cfg s.col.mem s.addr]
  by_cases h : (lenField s.cfg s.len).toNat = 0
  · have hstep := step_emptyData hb hu (BitVec.eq_of_toNat_eq h)
    rw [h]
    have hbusy : ∀ m < 1, ∃ v, run m ((s.accepted.begun .frmData).frameArgs .data) = .next v ∧ v.status.busy = true :=
      fun m hm => by
        obtain rfl := Nat.lt_one_iff.mp hm
        exact ⟨_, rfl, rfl⟩
    exact (accepts_frmData hb hu).completesFraming (steps := 1) (es := []) (run_succ hstep 0) hbusy
      ⟨by simp, rfl, rfl, rfl, rfl, rfl, id, [], by simp, rfl⟩
  · have hframes := frames_frmData hb hu h
    have hlen := List.length_pos_iff.mpr hframes.1
    rw [List.length_map, Nat.max_eq_left hlen]
    exact hframes.completesFraming ho (.inr hm)

/-- Settles O42: FRM_END makes the eleven emissions of the literal, none of which reads. -/
theorem frmEndEmitsTheLiteral : Obligations.FrmEndEmitsTheLiteral := by
  intro s hb hu ho
  exact (frames_frmEnd hb hu).completesFraming ho (.inl fun _ => addr?_literalEmissions)

/-- Settles O43: FRM_ALL makes the emissions of the data text and then the literal's. -/
theorem frmAllEmitsTheWholeText : Obligations.FrmAllEmitsTheWholeText := by
  intro s n text hb hu ho hm hn htext
  subst hn htext
  have h := (frames_frmAll hb hu).completesFraming ho (.inr hm)
  rwa [← List.length_map (f := Emission.ch), List.map_append, List.filterMap_append, map_ch_dataEmissions,
    map_ch_literalEmissions, filterMap_addr_dataEmissions, filterMap_addr_literalEmissions, List.append_nil] at h

/-! ## A fault -/

theorem allServed_replicate (j : Nat) : allServed (List.replicate j .ok) := fun _ hd => List.eq_of_mem_replicate hd

/-- Settles O44: the emissions before the fault are served, and the one that faults fails the command. -/
theorem emitFaultEndsTheCommand : Obligations.EmitFaultEndsTheCommand := by
  intro s i n j text ds hb hu hup hm hn hi hj hds
  subst hn
  -- the command's emissions
  obtain ⟨es, hframes, htext, hreads⟩ : ∃ es, s.Frames i es ∧ es.map Emission.ch = text ∧
      ((∀ e ∈ es, e.addr? = none) ∨ s.col.memServes) := by
    rcases hi with ⟨rfl, rfl⟩ | ⟨rfl, rfl⟩ | ⟨rfl, rfl⟩
    · have hn : (lenField s.cfg s.len).toNat ≠ 0 := fun h => by simp [h, dataText_eq_chunks] at hj
      exact ⟨_, frames_frmData hb hu hn, map_ch_dataEmissions _ _ _ _, .inr (hm.resolve_left (by simp))⟩
    · exact ⟨_, frames_frmEnd hb hu, map_ch_literalEmissions, .inl fun _ => addr?_literalEmissions⟩
    · refine ⟨_, frames_frmAll hb hu, ?_, .inr (hm.resolve_left (by simp))⟩
      rw [List.map_append, map_ch_dataEmissions, map_ch_literalEmissions, allText]
  subst htext
  rw [List.length_map] at hj
  obtain ⟨-, t, ha, hemits⟩ := hframes
  have htake : (es.take j).length = j := List.length_take_of_le hj.le
  have hserved : s.col.outServesNext (es.take j).length := by
    refine ⟨hup, ?_⟩
    rw [htake, hds, List.take_left' (by simp)]
    exact allServed_replicate j
  obtain ⟨c', hdone, hc⟩ := emitEach_served hserved (hreads.imp_left fun h e he => h e (List.mem_of_mem_take he))
  have hfault : c'.outDraws = .fault :: ds := by rw [hc.outDraws, htake, hds, List.drop_left' (by simp)]
  obtain ⟨c'', hfailed, hout, hdraws, hmem⟩ := Emission.perform_faulted (e := es[j]) (hc.outUp.trans hup) hfault
    (hreads.imp (fun h => h _ (List.getElem_mem hj)) hc.memServes)
  have hsplit : es.take j ++ es[j] :: es.drop (j + 1) = es := by
    rw [← List.drop_eq_getElem_cons hj, List.take_append_drop]
  rw [← hsplit, ← ha.col] at hemits
  rw [← ha.col] at hdone
  obtain ⟨f, hrun⟩ := Emits.run_fault ha.runs hemits hdone hfailed
  rw [htake] at hrun
  exact ⟨t, _, ha.exec, hrun, congrArg (·.completed false false .emitFault) ha.status, ⟨rfl, rfl, rfl, rfl, rfl⟩,
    (State.fail_sameHost _ _).trans ha.host, congrArg (fun p : Parser => { p with ph := .idle }) ha.prs,
    by rw [State.fail_col, State.framing_col, hout, hc.outText, List.map_take], hmem.trans hc.mem, hdraws, rfl⟩

/-! ## Refinement -/

theorem State.Frames.settles {s : State} {i : Instr} {es : List Emission} (h : s.Frames i es) :
    ∃ t, exec i s = .next t ∧ settlesTo t (emitEach es s.col) fun _ => false := by
  obtain ⟨hne, t, ha, hemits⟩ := h
  rw [← ha.col] at hemits ⊢
  exact ⟨t, ha.exec, Emits.settles ha.runs hemits hne⟩

/-- Settles O45: machine and pseudocode make the same emissions. -/
theorem framerRefinesThePseudocode : Obligations.FramerRefinesThePseudocode := by
  intro s n hb hu hn
  subst hn
  rw [writeData_eq, writeEnd_eq, writeAll_eq]
  refine ⟨?_, (frames_frmEnd hb hu).settles, (frames_frmAll hb hu).settles⟩
  by_cases h : (lenField s.cfg s.len).toNat = 0
  · rw [h]
    exact ⟨_, (accepts_frmData hb hu).exec, settlesTo_of_completes (step_emptyData hb hu (BitVec.eq_of_toNat_eq h))⟩
  · exact (frames_frmData hb hu h).settles

end Sys2Proof.Machine
end

section
/-! The parser over a source and an image that serve it (42_parser.md R150 to R165): `ParserReads` says what a run of the parser's
steps makes of a text, from given registers. It is chained from characters to digits, records and streams, one lemma for each
part of 42_parser.md R161 and R162. -/

namespace Sys2Proof.Machine

/-! ## Texts of hex pairs -/

theorem hexPairs_eq_nil {digits : List Byte} (h : hexPairs digits = some []) : digits = [] := by
  match digits with
  | [] => rfl
  | [_] => cases h
  | c₁ :: c₂ :: cs =>
    simp only [hexPairs] at h
    split at h <;> simp at h

theorem hexPairs_eq_cons {digits bs : List Byte} {b : Byte} (h : hexPairs digits = some (b :: bs)) :
    ∃ c₁ c₂ cs hi lo, digits = c₁ :: c₂ :: cs ∧ hexval c₁ = some hi ∧ hexval c₂ = some lo ∧ b = pairByte hi lo ∧
      hexPairs cs = some bs := by
  match digits with
  | [] => cases h
  | [_] => cases h
  | c₁ :: c₂ :: cs =>
    simp only [hexPairs] at h
    split at h
    · next hi lo bs' h₁ h₂ h₃ =>
      cases h
      exact ⟨c₁, c₂, cs, hi, lo, rfl, h₁, h₂, rfl, h₃⟩
    · cases h

/-- Digits of bytes split where the bytes do. -/
theorem hexPairs_eq_append {digits xs ys : List Byte} (h : hexPairs digits = some (xs ++ ys)) :
    ∃ d₁ d₂, digits = d₁ ++ d₂ ∧ hexPairs d₁ = some xs ∧ hexPairs d₂ = some ys := by
  induction xs generalizing digits with
  | nil => exact ⟨[], digits, rfl, rfl, h⟩
  | cons x xs ih =>
    obtain ⟨c₁, c₂, cs, hi, lo, rfl, h₁, h₂, rfl, hcs⟩ := hexPairs_eq_cons h
    obtain ⟨d₁, d₂, rfl, hd₁, hd₂⟩ := ih hcs
    exact ⟨c₁ :: c₂ :: d₁, d₂, rfl, by simp only [hexPairs, h₁, h₂, hd₁], hd₂⟩

theorem hiByte_addrOf (ahi alo : Byte) : hiByte (addrOf ahi alo) = ahi := by
  apply BitVec.eq_of_toNat_eq
  rw [hiByte_toNat, addrOf_toNat]
  omega

/-! ## Served calls -/

/-- `c'` is `c` after `text` has been consumed and `cells` have been written in order, all calls served. -/
structure Collab.Reads (c : Collab) (text : List Byte) (cells : List (Addr × Byte)) (c' : Collab) : Prop where
  inText : c.inText = text ++ c'.inText
  inPos : c'.inPos = c.inPos + text.length
  mem : c'.mem = c.mem.writeAll cells
  outText : c'.outText = c.outText
  inLoop : c'.inLoop = c.inLoop
  inServes : c'.inServes
  memServes : c.memServes → c'.memServes

theorem Collab.Reads.append {c c' c'' : Collab} {text text' : List Byte} {cells cells' : List (Addr × Byte)}
    (h : c.Reads text cells c') (h' : c'.Reads text' cells' c'') : c.Reads (text ++ text') (cells ++ cells') c'' where
  inText := by rw [h.inText, h'.inText, List.append_assoc]
  inPos := by rw [h'.inPos, h.inPos, List.length_append, Nat.add_assoc]
  mem := by rw [h'.mem, h.mem, Memory.writeAll_append]
  outText := h'.outText.trans h.outText
  inLoop := h'.inLoop.trans h.inLoop
  inServes := h'.inServes
  memServes := fun hm => h'.memServes (h.memServes hm)

/-- A served Consume (10_state.md R37). -/
theorem consumeOrFail_served {s : State} (hs : s.col.inServes) {ch : Byte} {rest : List Byte}
    (ht : s.col.inText = ch :: rest) :
    ∃ c', s.col.Reads [ch] [] c' ∧ ∀ k, consumeOrFail s k = k ch (s.withCol c') := by
  obtain ⟨hup, hds⟩ := hs
  have hserved (ds : List Draw) (h : allServed ds) : s.col.Reads [ch] [] (s.col.took ch rest ds) :=
    ⟨ht, rfl, rfl, rfl, rfl, ⟨hup, h⟩, id⟩
  refine ⟨s.col.took ch rest s.col.inDraws.tail, hserved _ fun d hd => hds d (List.mem_of_mem_tail hd), fun k => ?_⟩
  rcases consumeOrFail_cases s k with ⟨hdown, -⟩ | ⟨-, ds, ch', rest', hd, hup', he⟩ | ⟨-, ds, -, hup', -⟩ |
    ⟨-, ds, hd, -⟩ | ⟨-, ds, hd, -⟩
  · simp [hup] at hdown
  · rw [Collab.upcoming_cons ht] at hup'
    cases hup'
    have htail : s.col.inDraws.tail = ds := by
      rcases hd with ⟨hb, ha⟩ | hb <;> simp [*]
    rw [he, htail]
  · rw [Collab.upcoming_cons ht] at hup'
    cases hup'
  · cases hds .fault (by simp [hd])
  · cases hds .silent (by simp [hd])

/-- A served MemWrite (10_state.md R35). -/
theorem memWrite_served {c : Collab} (hm : c.memServes) (hi : c.inServes) (a : Addr) (v : Byte) :
    ∃ c', c.Reads [] [(a, v)] c' ∧ c.memWrite a v = .answer () c' := by
  obtain ⟨hup, hds⟩ := hm
  rcases c.memWrite_cases a v with ⟨hdown, -⟩ | ⟨-, ds, hd, he⟩ | ⟨-, ds, hd, -⟩
  · simp [hup] at hdown
  · have hserved : ∀ d ∈ ds, d = MemDraw.ok := by
      intro d hmem
      rcases hd with ⟨-, ha⟩ | hb
      · simp [ha] at hmem
      · exact hds d (by simp [hb, hmem])
    exact ⟨c.wasWritten a v ds, ⟨rfl, rfl, rfl, rfl, rfl, hi, fun _ => ⟨hup, hserved⟩⟩, he⟩
  · cases hds .silent (by simp [hd])

/-! ## Runs of the parser -/

/-- A parser command is running, undisturbed and with no transaction outstanding. -/
structure State.RunsParser (s : State) : Prop where
  undisturbed : s.undisturbed
  busy : s.status.busy = true
  op : s.op.isParser = true
  waiting : s.waiting = none

/-- `s` with the parser's registers and the collaborators replaced. -/
def State.parsing (s : State) (p : Parser) (c : Collab) : State := { s with prs := p, col := c }

@[simp] theorem State.parsing_prs (s : State) (p : Parser) (c : Collab) : (s.parsing p c).prs = p := rfl
@[simp] theorem State.parsing_col (s : State) (p : Parser) (c : Collab) : (s.parsing p c).col = c := rfl
@[simp] theorem State.parsing_cfg (s : State) (p : Parser) (c : Collab) : (s.parsing p c).cfg = s.cfg := rfl
@[simp] theorem State.parsing_withCol (s : State) (p : Parser) (c c' : Collab) :
    (s.parsing p c).withCol c' = s.parsing p c' := rfl

theorem State.RunsParser.step {s : State} (hs : s.RunsParser) (p : Parser) (c : Collab) :
    step (s.parsing p c) = parserStep (s.parsing p c) := by
  have hop := hs.op
  have hstep : operationStep (s.parsing p c) = parserStep (s.parsing p c) := by
    cases ho : s.op <;> simp only [ho, Op.isParser, Bool.false_eq_true] at hop <;>
      simp only [operationStep, State.parsing, ho]
  rw [step_undisturbed (s := s.parsing p c) hs.undisturbed hs.busy, ihxcStep_free (s := s.parsing p c) hs.waiting, hstep]

/-- From the parser's registers `p`, `text` is consumed, one character a step, and `cells` are written; `next` is where the
parser then is. -/
def ParserReads (s : State) (p : Parser) (text : List Byte) (cells : List (Addr × Byte)) (next : Collab → State) : Prop :=
  ∀ c rest, c.inServes → (cells = [] ∨ c.memServes) → c.inText = text ++ rest →
    ∃ c', c.Reads text cells c' ∧ run text.length (s.parsing p c) = .next (next c')

theorem ParserReads.nil (s : State) (p : Parser) : ParserReads s p [] [] (s.parsing p) :=
  fun c _ hi _ _ => ⟨c, ⟨rfl, rfl, rfl, rfl, rfl, hi, id⟩, rfl⟩

theorem ParserReads.append {s : State} {p p' : Parser} {text text' : List Byte} {cells cells' : List (Addr × Byte)}
    {next : Collab → State} (h : ParserReads s p text cells (s.parsing p')) (h' : ParserReads s p' text' cells' next) :
    ParserReads s p (text ++ text') (cells ++ cells') next := by
  intro c rest hi hm ht
  rw [List.append_eq_nil_iff] at hm
  rw [List.append_assoc] at ht
  obtain ⟨c', hc, hrun⟩ := h c _ hi (hm.imp_left And.left) ht
  have ht' : c'.inText = text' ++ rest := List.append_cancel_left (hc.inText.symm.trans ht)
  obtain ⟨c'', hc', hrun'⟩ := h' c' rest hc.inServes (hm.imp And.right hc.memServes) ht'
  exact ⟨c'', hc.append hc', by rw [List.length_append, run_add hrun, hrun']⟩

section
variable {s : State} (hs : s.RunsParser) {p : Parser}
include hs

/-- One character in one step that writes nothing. -/
theorem reads_char {ch : Byte} {next : Collab → State} {k : State → Byte → State → Host.Outcome State Fault Refusal}
    (hstep : ∀ c, parserStep (s.parsing p c) = consumeOrFail (s.parsing p c) (k (s.parsing p c)))
    (hk : ∀ c c', k (s.parsing p c) ch (s.parsing p c') = .next (next c')) : ParserReads s p [ch] [] next := by
  intro c rest hi _ ht
  obtain ⟨c', hc, he⟩ := consumeOrFail_served (s := s.parsing p c) hi ht
  exact ⟨c', hc, run_succ (by rw [hs.step, hstep, he, State.parsing_withCol, hk]) 0⟩

/-! ## Seek-start (42_parser.md R151, R152) -/

theorem reads_seek {ch : Byte} {next : Collab → State} (hph : p.ph = .seek)
    (hk : ∀ c, (s.parsing p c).seekChar ch = next c) : ParserReads s p [ch] [] next :=
  reads_char hs (k := fun _ ch t => .next (t.seekChar ch)) (fun c => parserStep_seek (s := s.parsing p c) hph)
    fun _ c' => congrArg _ (hk c')

/-- Whitespace is skipped. -/
theorem reads_blanks {blanks : List Byte} (hph : p.ph = .seek) (h : ∀ c ∈ blanks, isWs s.cfg c = true) :
    ParserReads s p blanks [] (s.parsing p) := by
  induction blanks with
  | nil => exact .nil s p
  | cons ch blanks ih =>
    have hch : ParserReads s p [ch] [] (s.parsing p) := reads_seek hs hph fun _ => if_pos (h ch (by simp))
    exact hch.append (ih fun c hc => h c (by simp [hc]))

/-- The start marker. -/
theorem reads_colon (hstart : s.cfg.startOk = true) (hph : p.ph = .seek) :
    ParserReads s p [chColon] [] (s.parsing { p with acc := 0, nib := false, ph := .len }) := by
  have hws : ¬ isWs s.cfg chColon = true := by simpa [Config.startOk] using hstart
  exact reads_seek hs hph fun _ => (if_neg hws).trans (if_pos rfl)

/-! ## Hex pairs (42_parser.md R153) -/

/-- The first digit of a pair. -/
theorem reads_firstDigit (hseek : p.ph ≠ .seek) (hidle : p.ph ≠ .idle) (hnib : p.nib = false) {ch : Byte} {hi : Nib}
    (hch : hexval ch = some hi) : ParserReads s p [ch] [] (s.parsing { p with hi := hi, nib := true }) :=
  reads_char hs (k := fun s ch t => recordChar s t ch) (fun c => parserStep_record (s := s.parsing p c) hseek hidle)
    fun c c' => by simp [recordChar, hch, hnib, State.firstDigit, State.parsing]

/-- The parser's registers when the pair that stands for `b` is complete, `hi` its first digit. -/
def Parser.tookPair (p : Parser) (hi : Nib) (b : Byte) : Parser := { p with hi := hi, nib := false, acc := p.acc + b }

omit hs in
/-- The second digit of a pair is the step on the whole byte. -/
theorem recordChar_secondDigit {hi lo : Nib} {ch : Byte} (hch : hexval ch = some lo) (s₀ : State) (c : Collab) :
    recordChar s₀ (s.parsing { p with hi := hi, nib := true } c) ch =
      hexByte s₀ (s.parsing (p.tookPair hi (pairByte hi lo)) c) (pairByte hi lo) := by
  simp only [recordChar, hch]
  rfl

/-- A whole pair that writes nothing. -/
theorem reads_pair (hseek : p.ph ≠ .seek) (hidle : p.ph ≠ .idle) (hnib : p.nib = false) {c₁ c₂ : Byte} {hi lo : Nib}
    (h₁ : hexval c₁ = some hi) (h₂ : hexval c₂ = some lo) {next : Collab → State}
    (hk : ∀ s₀ c, hexByte s₀ (s.parsing (p.tookPair hi (pairByte hi lo)) c) (pairByte hi lo) = .next (next c)) :
    ParserReads s p [c₁, c₂] [] next := by
  refine (reads_firstDigit hs hseek hidle hnib h₁).append (reads_char hs (k := fun s ch t => recordChar s t ch)
    (fun c => parserStep_record (s := s.parsing _ c) hseek hidle) fun c c' => ?_)
  rw [recordChar_secondDigit h₂, hk]

/-- A pair of the payload: its byte is written in the step of its second digit (42_parser.md R158). -/
theorem reads_dataPair (hph : p.ph = .data) (hnib : p.nib = false) {c₁ c₂ : Byte} {hi lo : Nib}
    (h₁ : hexval c₁ = some hi) (h₂ : hexval c₂ = some lo) :
    ParserReads s p [c₁, c₂] [(p.addr, pairByte hi lo)]
      fun c => (s.parsing (p.tookPair hi (pairByte hi lo)) c).wroteByte := by
  have hseek : p.ph ≠ .seek := by simp [hph]
  have hidle : p.ph ≠ .idle := by simp [hph]
  refine (reads_firstDigit hs hseek hidle hnib h₁).append (text' := [c₂]) (cells' := [(p.addr, pairByte hi lo)])
    fun c rest hin hm ht => ?_
  let p₁ : Parser := { p with hi := hi, nib := true }
  obtain ⟨c', hc, he⟩ := consumeOrFail_served (s := s.parsing p₁ c) hin ht
  obtain ⟨c'', hw, hwrite⟩ := memWrite_served (hc.memServes (hm.resolve_left (by simp))) hc.inServes p.addr (pairByte hi lo)
  refine ⟨c'', hc.append hw, run_succ ?_ 0⟩
  have hbyte : hexByte (s.parsing p₁ c) (s.parsing (p.tookPair hi (pairByte hi lo)) c') (pairByte hi lo) =
      dataByte (s.parsing p₁ c) (s.parsing (p.tookPair hi (pairByte hi lo)) c') (pairByte hi lo) := by
    simp only [hexByte, State.parsing_prs, Parser.tookPair, hph]
  have haddr : (p.tookPair hi (pairByte hi lo)).addr = p.addr := rfl
  rw [hs.step, parserStep_record (s := s.parsing p₁ c) hseek hidle, he, State.parsing_withCol,
    recordChar_secondDigit h₂, hbyte]
  simp only [dataByte, State.parsing_col, State.parsing_prs, haddr, hwrite, State.parsing_withCol]

/-! ## Records (42_parser.md R154 to R160) -/

/-- The parser is between two bytes of the payload, `left` bytes to come: `acc` is the running total, `tt` the type. -/
structure Parser.InPayload (p : Parser) (left : Nat) (acc tt : Byte) (mode : PMode) : Prop where
  ph : p.ph = if p.cnt = 0 then .cks else .data
  nib : p.nib = false
  cnt : p.cnt.toNat = left
  acc : p.acc = acc
  type : p.type = tt
  mode : p.mode = mode

section
variable (hnib : p.nib = false) {c₁ c₂ : Byte} {hi lo : Nib} (h₁ : hexval c₁ = some hi) (h₂ : hexval c₂ = some lo)
include hnib h₁ h₂

/-- LL (42_parser.md R154, R165). -/
theorem reads_len (hph : p.ph = .len) :
    ParserReads s p [c₁, c₂] [] (s.parsing
      { p.tookPair hi (pairByte hi lo) with len := pairByte hi lo, cnt := pairByte hi lo, ph := .adrh }) :=
  reads_pair hs (by simp [hph]) (by simp [hph]) hnib h₁ h₂ fun _ _ => by
    simp only [hexByte, State.parsing_prs, Parser.tookPair, hph]
    rfl

/-- The high byte of AAAA (42_parser.md R155, R165). -/
theorem reads_adrh (hph : p.ph = .adrh) :
    ParserReads s p [c₁, c₂] [] (s.parsing
      { p.tookPair hi (pairByte hi lo) with addr := addrOf (pairByte hi lo) 0x00, ph := .adrl }) :=
  reads_pair hs (by simp [hph]) (by simp [hph]) hnib h₁ h₂ fun _ _ => by
    simp only [hexByte, State.parsing_prs, Parser.tookPair, hph]
    rfl

/-- The low byte of AAAA (42_parser.md R155, R165). -/
theorem reads_adrl (hph : p.ph = .adrl) :
    ParserReads s p [c₁, c₂] [] (s.parsing
      { p.tookPair hi (pairByte hi lo) with addr := addrOf (hiByte p.addr) (pairByte hi lo), ph := .type }) :=
  reads_pair hs (by simp [hph]) (by simp [hph]) hnib h₁ h₂ fun _ _ => by
    simp only [hexByte, State.parsing_prs, Parser.tookPair, hph]
    rfl

/-- TT of a Data or an EndOfFile record (42_parser.md R157, R165). -/
theorem reads_type (hph : p.ph = .type) (htt : pairByte hi lo = 0x00 ∨ pairByte hi lo = 0x01) :
    ParserReads s p [c₁, c₂] [] (s.parsing
      { p.tookPair hi (pairByte hi lo) with type := pairByte hi lo, ph := if p.cnt = 0 then .cks else .data }) :=
  reads_pair hs (by simp [hph]) (by simp [hph]) hnib h₁ h₂ fun _ _ => by
    simp only [hexByte, State.parsing_prs, Parser.tookPair, hph]
    exact (recordType_eq _ _).trans (if_pos htt)

end

/-- The header: LL, AAAA and TT (42_parser.md R154 to R157). -/
theorem reads_header (hph : p.ph = .len) (hnib : p.nib = false) (hacc : p.acc = 0) {digits : List Byte}
    {ll ahi alo tt : Byte} (hd : hexPairs digits = some [ll, ahi, alo, tt]) (htt : tt = 0x00 ∨ tt = 0x01) :
    ∃ p', ParserReads s p digits [] (s.parsing p') ∧ p'.InPayload ll.toNat (ll + ahi + alo + tt) tt p.mode ∧
      p'.addr = addrOf ahi alo := by
  obtain ⟨a₁, a₂, _, ha, la, rfl, ha₁, ha₂, rfl, hda⟩ := hexPairs_eq_cons hd
  obtain ⟨b₁, b₂, _, hb, lb, rfl, hb₁, hb₂, rfl, hdb⟩ := hexPairs_eq_cons hda
  obtain ⟨c₁, c₂, _, hc, lc, rfl, hc₁, hc₂, rfl, hdc⟩ := hexPairs_eq_cons hdb
  obtain ⟨d₁, d₂, _, he, ld, rfl, hd₁, hd₂, rfl, hdd⟩ := hexPairs_eq_cons hdc
  obtain rfl := hexPairs_eq_nil hdd
  have hreads := (reads_len hs hnib ha₁ ha₂ hph).append ((reads_adrh hs rfl hb₁ hb₂ rfl).append
    ((reads_adrl hs rfl hc₁ hc₂ rfl).append (reads_type hs rfl hd₁ hd₂ rfl htt)))
  have hsum : p.acc + pairByte ha la + pairByte hb lb + pairByte hc lc + pairByte he ld =
      pairByte ha la + pairByte hb lb + pairByte hc lc + pairByte he ld := by rw [hacc, zero_add]
  exact ⟨_, hreads, ⟨rfl, rfl, rfl, hsum, rfl, rfl⟩, congrArg (addrOf · _) (hiByte_addrOf _ _)⟩

/-- Data bytes, all of the payload or part of it (42_parser.md R158). -/
theorem reads_payload {digits bs : List Byte} (hd : hexPairs digits = some bs) {left : Nat} {acc tt : Byte} {mode : PMode}
    (hp : p.InPayload (bs.length + left) acc tt mode) :
    ∃ p', ParserReads s p digits (dataCells p.addr bs) (s.parsing p') ∧ p'.InPayload left (acc + sum8 bs) tt mode := by
  induction bs generalizing digits p acc with
  | nil =>
    obtain rfl := hexPairs_eq_nil hd
    exact ⟨p, .nil s p, by simpa using hp⟩
  | cons b bs ih =>
    obtain ⟨c₁, c₂, cs, hi, lo, rfl, h₁, h₂, rfl, hcs⟩ := hexPairs_eq_cons hd
    have hcnt := hp.cnt
    rw [List.length_cons] at hcnt
    have hne : p.cnt ≠ 0 := fun hz => by simp [hz] at hcnt; omega
    have hdata : p.ph = .data := hp.ph.trans (if_neg hne)
    let p₁ : Parser := { p.tookPair hi (pairByte hi lo) with
      addr := p.addr + 1
      cnt := p.cnt - 1
      ph := if p.cnt = 1 then .cks else .data }
    have hcnt₁ : p₁.cnt.toNat = bs.length + left := by simp only [p₁]; bv_omega
    have hlast : (p.cnt = 1) = (p₁.cnt = 0) := by
      simp only [p₁, eq_iff_iff]
      constructor <;> intro h <;> bv_omega
    have hp₁ : p₁.InPayload (bs.length + left) (acc + pairByte hi lo) tt mode :=
      ⟨by simp only [p₁, hlast], rfl, hcnt₁, congrArg (· + _) hp.acc, hp.type, hp.mode⟩
    obtain ⟨p', hreads, hp'⟩ := ih hcs hp₁
    refine ⟨p', (reads_dataPair hs hdata hp.nib h₁ h₂).append hreads, ?_⟩
    rwa [sum8_cons, ← BitVec.add_assoc]

/-- The checksum: the total is taken and tested (42_parser.md R159). -/
theorem reads_checksum {digits : List Byte} {cc acc tt : Byte} {mode : PMode} (hd : hexPairs digits = some [cc])
    (hp : p.InPayload 0 acc tt mode) :
    ∃ p', ParserReads s p digits [] (fun c => (s.parsing p' c).checkSum) ∧ p'.acc = acc + cc ∧ p'.type = tt ∧
      p'.mode = mode := by
  obtain ⟨c₁, c₂, cs, hi, lo, rfl, h₁, h₂, rfl, hcs⟩ := hexPairs_eq_cons hd
  obtain rfl := hexPairs_eq_nil hcs
  have hcks : p.ph = .cks := hp.ph.trans (if_pos (BitVec.eq_of_toNat_eq hp.cnt))
  refine ⟨p.tookPair hi (pairByte hi lo), reads_pair hs (by simp [hcks]) (by simp [hcks]) hp.nib h₁ h₂ fun _ _ => ?_,
    congrArg (· + _) hp.acc, hp.type, hp.mode⟩
  simp only [hexByte, State.parsing_prs, Parser.tookPair, hcks]

/-- A record of either type, up to the test of its sum (42_parser.md R161). -/
theorem reads_record (hstart : s.cfg.startOk = true) (hph : p.ph = .seek) {r : Record} {text : List Byte}
    (hlen : r.lengthOk = true) (htype : r.typeOk = true) (ht : textOfRecord s.cfg r text) :
    ∃ p', ParserReads s p text (dataCells r.aaaa r.data) (fun c => (s.parsing p' c).checkSum) ∧ p'.acc = sum8 r.bytes ∧
      p'.type = r.tt ∧ p'.mode = p.mode := by
  obtain ⟨blanks, digits, rfl, hblanks, hdigits⟩ := ht
  rw [Record.bytes, Record.bodyBytes] at hdigits
  obtain ⟨digits, dcc, rfl, hdigits, hcc⟩ := hexPairs_eq_append hdigits
  obtain ⟨dh, dd, rfl, hh, hdata⟩ := hexPairs_eq_append hdigits
  have hll : r.data.length = r.ll.toNat := by simpa [Record.lengthOk] using hlen
  obtain ⟨p₁, hr₁, hp₁, haddr⟩ := reads_header hs (p := { p with acc := 0, nib := false, ph := .len }) rfl rfl rfl hh
    (by simpa [Record.typeOk] using htype)
  rw [← hll] at hp₁
  obtain ⟨p₂, hr₂, hp₂⟩ := reads_payload hs hdata (left := 0) hp₁
  obtain ⟨p₃, hr₃, hacc, htt, hmode⟩ := reads_checksum hs hcc hp₂
  rw [haddr, addrOf_hiByte_loByte] at hr₂
  refine ⟨p₃, ?_, ?_, htt, hmode⟩
  · have hall := (reads_blanks hs hph hblanks).append ((reads_colon hs hstart hph).append
      (hr₁.append (hr₂.append hr₃)))
    simpa using hall
  · rw [hacc]
    simp only [Record.bytes, Record.bodyBytes, sum8_append, sum8_cons, sum8_nil, BitVec.add_assoc]
    simp

/-! ## Streams (42_parser.md R162, R163) -/

/-- Data records and an EndOfFile record, all well formed. -/
theorem reads_stream (hstart : s.cfg.startOk = true) (hph : p.ph = .seek) (hmode : p.mode = .read) {rs : List Record}
    {e : Record} {text : List Byte} (hrs : ∀ r ∈ rs, r.wf = true ∧ r.tt = 0x00) (he : e.wf = true) (hett : e.tt = 0x01)
    (ht : textOfStream s.cfg (rs ++ [e]) text) :
    ∃ p', ParserReads s p text (streamCells (rs ++ [e])) fun c => (s.parsing p' c).complete true true .none := by
  have hsplit {r : Record} (h : r.wf = true) : r.lengthOk = true ∧ r.typeOk = true ∧ sum8 r.bytes = 0 := by
    simpa [Record.wf, Record.sumOk, validBytes, and_assoc] using h
  induction rs generalizing p text with
  | nil =>
    obtain ⟨t₁, _, rfl, hrec, rfl⟩ := ht
    obtain ⟨hlen, htype, hsum⟩ := hsplit he
    obtain ⟨p', hreads, hacc, htt, hm⟩ := reads_record hs hstart hph hlen htype hrec
    refine ⟨p', ?_⟩
    have hdone (c : Collab) : (s.parsing p' c).checkSum = (s.parsing p' c).complete true true .none := by
      simp [State.checkSum, State.recordDone, hacc, hsum, hm, hmode, htt, hett]
    simpa only [List.append_nil, List.nil_append, streamCells, hdone] using hreads
  | cons r rs ih =>
    obtain ⟨t₁, t₂, rfl, hrec, hrest⟩ := ht
    obtain ⟨hwf, hrtt⟩ := hrs r (by simp)
    obtain ⟨hlen, htype, hsum⟩ := hsplit hwf
    obtain ⟨p₁, hreads, hacc, htt, hm⟩ := reads_record hs hstart hph hlen htype hrec
    have hdone (c : Collab) : (s.parsing p₁ c).checkSum = s.parsing { p₁ with ph := .seek } c := by
      simp [State.checkSum, State.recordDone, hacc, hsum, hm, hmode, htt, hrtt, State.parsing]
    simp only [hdone] at hreads
    obtain ⟨p', hreads'⟩ := ih (p := { p₁ with ph := .seek }) rfl (hm.trans hmode) (fun r' hr' => hrs r' (by simp [hr']))
      hrest
    exact ⟨p', hreads.append hreads'⟩

end

end Sys2Proof.Machine
end

section
/-! The round trip (41_framer.md R127, 70_reset_and_hazards.md R241): the text of FRM_ALL is a stream of the records of its chunks,
each NEWLINE a blank before the next record, and the stream's cells are the range's, with the image's bytes. -/

namespace Sys2Proof.Machine

/-! ## The text as a stream -/

/-- The records of the data text, one a chunk (41_framer.md R121). -/
def chunkRecords (m : Memory) (a : Addr) (n : Nat) : List Record :=
  chunks (fun b k => [lineRecord b (imageBytes m b k)]) a n

/-- The record of the literal `:00000001FF` (30_encoding.md R78). -/
def eofRecord : Record := { ll := 0x00, aaaa := 0x0000, tt := 0x01, data := [], cc := 0xFF }

theorem textOfRecord_literal (cfg : Config) {blanks : List Byte} (h : ∀ c ∈ blanks, isWs cfg c = true) :
    textOfRecord cfg eofRecord (blanks ++ eofLiteral) :=
  ⟨blanks, eofLiteral.tail, rfl, h, by decide⟩

theorem textOfRecord_line (cfg : Config) {blanks : List Byte} (h : ∀ c ∈ blanks, isWs cfg c = true) (a : Addr)
    (d : List Byte) : textOfRecord cfg (lineRecord a d) (blanks ++ chColon :: (lineRecord a d).bytes.flatMap hex2) :=
  ⟨blanks, _, rfl, h, hexPairs_flatMap_hex2 _⟩

/-- What FRM_ALL emits is a well-formed stream, after any blanks (41_framer.md R127, 30_encoding.md R72). -/
theorem textOfStream_allText {cfg : Config} (hnl : cfg.newlineOk = true) (m : Memory) (a : Addr) (n : Nat)
    {blanks : List Byte} (h : ∀ c ∈ blanks, isWs cfg c = true) :
    textOfStream cfg (chunkRecords m a n ++ [eofRecord]) (blanks ++ allText cfg m a n) := by
  rw [allText, dataText_eq_chunks]
  induction a, n using chunk_induction generalizing blanks with
  | zero a => exact ⟨_, [], (List.append_nil _).symm, textOfRecord_literal cfg h, rfl⟩
  | chunk a n hn ih =>
    have hblank : ∀ c ∈ [cfg.newline], isWs cfg c = true := fun c hc => List.mem_singleton.mp hc ▸ hnl
    rw [chunkRecords, chunks_eq _ a hn, chunks_eq _ a hn, lineText_eq]
    exact ⟨_, _, by simp, textOfRecord_line cfg h a (imageBytes m a (min 16 n)), ih hblank⟩

theorem chunkRecords_wf {m : Memory} {a : Addr} {n : Nat} {r : Record} (h : r ∈ chunkRecords m a n) :
    r.wf = true ∧ r.tt = 0x00 := by
  simp only [chunkRecords, chunks, List.mem_flatMap, List.mem_singleton] at h
  obtain ⟨j, -, rfl⟩ := h
  exact ⟨lineRecord_wf (by simp), rfl⟩

/-! ## The cells of the stream -/

/-- The cells of a range, with the bytes of `m`. -/
def rangeCells (m : Memory) (a : Addr) (n : Nat) : List (Addr × Byte) := (addrsFrom a n).map fun b => (b, m.read b)

theorem rangeCells_add (m : Memory) (a : Addr) (i j : Nat) :
    rangeCells m a (i + j) = rangeCells m a i ++ rangeCells m (a + BitVec.ofNat 16 i) j := by
  simp [rangeCells, addrsFrom_add]

theorem dataCells_imageBytes (m : Memory) (a : Addr) (n : Nat) : dataCells a (imageBytes m a n) = rangeCells m a n := by
  induction n generalizing a with
  | zero => rfl
  | succ n ih =>
    have htail := ih (a + 1)
    rw [imageBytes_eq_map, rangeCells] at htail ⊢
    rw [addrsFrom_succ, List.map_cons, List.map_cons, dataCells, htail]

theorem streamCells_append (rs rs' : List Record) : streamCells (rs ++ rs') = streamCells rs ++ streamCells rs' := by
  induction rs with
  | nil => rfl
  | cons r rs ih => simp only [List.cons_append, streamCells, ih, List.append_assoc]

/-- The stream writes the range, in order (41_framer.md R121, 42_parser.md R158). -/
theorem streamCells_chunkRecords (m : Memory) (a : Addr) (n : Nat) :
    streamCells (chunkRecords m a n ++ [eofRecord]) = rangeCells m a n := by
  have heof : streamCells [eofRecord] = [] := rfl
  rw [streamCells_append, heof, List.append_nil, chunkRecords]
  induction a, n using chunk_induction with
  | zero a => rfl
  | chunk a n hn ih =>
    have hfirst : streamCells [lineRecord a (imageBytes m a (min 16 n))] = rangeCells m a (min 16 n) := by
      rw [← dataCells_imageBytes]
      exact List.append_nil _
    rw [chunks_eq _ a hn, streamCells_append, hfirst, ih, ← rangeCells_add, Nat.add_sub_cancel' (Nat.min_le_right 16 n)]

/-- Writing an image's bytes to some cells, in whatever order and however often, copies those cells (10_state.md R35). -/
theorem Memory.read_writeAll_image (m : Memory) {m' : Memory} (h : m'.wf) (addrs : List Addr) (b : Addr) :
    (m'.writeAll (addrs.map fun a => (a, m.read a))).read b = if b ∈ addrs then m.read b else m'.read b := by
  induction addrs generalizing m' with
  | nil => rfl
  | cons a addrs ih =>
    have hwrite : (m'.write a (m.read a)).read b = if b = a then m.read b else m'.read b := by
      split
      · next hba => rw [hba, Memory.read_write_same h]
      · next hba => exact Memory.read_write_other h _ hba
    rw [List.map_cons, Memory.writeAll, ih (Memory.write_wf h _ _), hwrite]
    by_cases hb : b ∈ addrs <;> simp [hb]

/-! ## PRS_READ -/

/-- PRS_READ on a well-formed stream (42_parser.md R162, R163). -/
theorem prsRead_reads_stream {s : State} {rs : List Record} {e : Record} {text rest : List Byte}
    (hb : s.status.busy = false) (hu : s.undisturbed) (hi : s.col.inServes) (hm : s.col.memServes)
    (hstart : s.cfg.startOk = true) (hrs : ∀ r ∈ rs, r.wf = true ∧ r.tt = 0x00) (he : e.wf = true) (hett : e.tt = 0x01)
    (ht : textOfStream s.cfg (rs ++ [e]) text) (hin : s.col.inText = text ++ rest) :
    ∃ t p c, exec .prsRead s = .next t ∧ run text.length t = .next ((t.parsing p c).complete true true .none) ∧
      t.status = { Status.cleared with busy := true } ∧ t.frm = s.frm ∧ t.sameHost s ∧
      s.col.Reads text (streamCells (rs ++ [e])) c := by
  let t := (s.accepted.begun .prsRead).parseFrom .read
  have hruns : t.RunsParser := ⟨hu, rfl, rfl, rfl⟩
  obtain ⟨p, hreads⟩ := reads_stream hruns (p := t.prs) hstart rfl rfl hrs he hett ht
  obtain ⟨c, hc, hrun⟩ := hreads s.col rest hi (.inr hm) hin
  exact ⟨t, p, c, acceptOrDrop_idle hb fun t => (t.begun .prsRead).parseFrom .read, hrun, rfl, rfl,
    ⟨rfl, rfl, rfl, rfl, rfl, rfl⟩, hc⟩

/-- Settles O53: the text is a stream whose cells are the range's, and writing them copies the range. -/
theorem roundTripReproducesTheRange : Obligations.RoundTripReproducesTheRange := by
  intro s m a n hb hu hi hm hstart hnl hwf hin
  have hstream : textOfStream s.cfg (chunkRecords m a n ++ [eofRecord]) (allText s.cfg m a n) :=
    textOfStream_allText hnl m a n (blanks := []) (by simp)
  obtain ⟨t, p, c, hexec, hrun, hst, -, -, hc⟩ := prsRead_reads_stream (rest := []) hb hu hi hm hstart
    (fun r hr => chunkRecords_wf hr) rfl rfl hstream (by rw [hin, List.append_nil])
  have hread (b : Addr) : c.mem.read b = if b ∈ addrsFrom a n then m.read b else s.col.mem.read b := by
    rw [hc.mem, streamCells_chunkRecords]
    exact Memory.read_writeAll_image m hwf _ b
  have hrest : c.inText = [] := List.self_eq_append_right.mp (hin.symm.trans hc.inText)
  refine ⟨t, _, _, hexec, hrun, congrArg (·.completed true true .none) hst, ⟨rfl, rfl, rfl, rfl, rfl⟩, hrest,
    fun i hlt => ?_, fun b hout => ?_⟩
  · exact (hread _).trans (if_pos (mem_addrsFrom.mpr ⟨i, hlt, rfl⟩))
  · refine (hread b).trans (if_neg fun hmem => ?_)
    obtain ⟨i, hlt, hbi⟩ := mem_addrsFrom.mp hmem
    exact hout i hlt hbi

end Sys2Proof.Machine
end

section
/-! The record types as steps (42_parser.md R157, R163 to R165; assumption log 17). -/

namespace Sys2Proof.Machine

/-- Settles O22: both meanings are `State.beginPayload`. -/
theorem recordTypesBeginPayload : Obligations.RecordTypesBeginPayload :=
  ⟨fun _ _ _ => rfl, fun _ _ _ => rfl⟩

/-- IHXC's move: its own, with nothing on the agenda, or while the host waits for BUSY = 0 (10_state.md R21). -/
theorem step_ihxcMove {s : State} {ms : List Move}
    (h : s.agenda = .ihxc :: ms ∨ (s.agenda = [] ∧ ms = []) ∨
      (∃ rest, s.agenda = .wait :: rest ∧ ms = .wait :: rest ∧ s.status.busy = true)) :
    step s = ihxcStep (s.withAgenda ms) := by
  rcases h with h | ⟨h, rfl⟩ | ⟨rest, h, rfl, hb⟩
  · simp only [step, agendaStep, h, makeMove]
  · have hs : s.withAgenda [] = s := by rw [← h]; rfl
    simp only [step, agendaStep, h, hs]
  · have hs : s.withAgenda (.wait :: rest) = s := by rw [← h]; rfl
    rw [hs, step_undisturbed (.inr ⟨rest, h⟩) hb]

/-- With a parser command running and no transaction outstanding, IHXC's step is the parser's. -/
theorem ihxcStep_parser {s : State} (hop : s.op.isParser = true) (hw : s.waiting = none) : ihxcStep s = parserStep s := by
  rw [ihxcStep_free hw]
  cases ho : s.op <;> simp only [ho, Op.isParser, Bool.false_eq_true] at hop <;> simp only [operationStep, ho]

theorem consumeOrFail_chr {s : State} {ch : Byte} {c : Collab} (h : s.col.consume = .answer (.chr ch) c)
    (k : Byte → State → Host.Outcome State Fault Refusal) : consumeOrFail s k = k ch (s.withCol c) := by
  simp only [consumeOrFail, h]

/-- A legal record type's step is the meaning of the instruction decoded (42_parser.md R157, assumption log 17). -/
theorem recordType_legal {s : State} {b : Byte} {i : Instr}
    (h : decodeHeader (headerOf s.prs.cnt s.prs.addr b) = .ok i) : recordType s b = exec i s := by
  simp only [recordType, h]

/-- Settles O12: the step is IHXC's, on the second digit of a pair in phase TYPE. -/
theorem stepRunsTheRecordType : Obligations.StepRunsTheRecordType := by
  intro s ms ch c v i hagenda hop hw hph hnib hconsume hv hdec
  let t := s.withAgenda ms
  have hseek : t.prs.ph ≠ .seek := by simp [t, hph]
  have hidle : t.prs.ph ≠ .idle := by simp [t, hph]
  have hbyte : recordChar t (t.withCol c) ch =
      recordType ((t.withCol c).tookPair (pairByte s.prs.hi v)) (pairByte s.prs.hi v) := by
    simp [recordChar, hexByte, t, hv, hnib, hph]
  rw [step_ihxcMove hagenda, ihxcStep_parser (s := t) hop hw, parserStep_record hseek hidle,
    consumeOrFail_chr (s := t) hconsume, hbyte]
  exact recordType_legal hdec

end Sys2Proof.Machine
end

section
/-! PRS_LINE and PRS_READ as whole operations over a source and an image that serve them (42_parser.md R150 to R167): an accepted
command reads what `ParserReads` says of its text, up to the step that completes or fails it. -/

namespace Sys2Proof.Machine

/-! ## Acceptance and completion -/

/-- `t` is `s` with the parser command `i` of mode `m` accepted (43_control.md R190). -/
structure State.AcceptsParse (s : State) (i : Instr) (m : PMode) (t : State) : Prop where
  exec : exec i s = .next t
  runs : t.RunsParser
  ph : t.prs.ph = .seek
  mode : t.prs.mode = m
  status : t.status = { Status.cleared with busy := true }
  frm : t.frm = s.frm
  col : t.col = s.col
  host : t.sameHost s

section
variable {s : State} (hb : s.status.busy = false) (hu : s.undisturbed)
include hb hu

theorem accepts_prsLine : s.AcceptsParse .prsLine .line ((s.accepted.begun .prsLine).parseFrom .line) :=
  ⟨acceptOrDrop_idle hb fun t => (t.begun .prsLine).parseFrom .line,
    ⟨hu, rfl, rfl, rfl⟩, rfl, rfl, rfl, rfl, rfl, ⟨rfl, rfl, rfl, rfl, rfl, rfl⟩⟩

theorem accepts_prsRead : s.AcceptsParse .prsRead .read ((s.accepted.begun .prsRead).parseFrom .read) :=
  ⟨acceptOrDrop_idle hb fun t => (t.begun .prsRead).parseFrom .read,
    ⟨hu, rfl, rfl, rfl⟩, rfl, rfl, rfl, rfl, rfl, ⟨rfl, rfl, rfl, rfl, rfl, rfl⟩⟩

end

/-- Command `i` completes after `steps` steps with the result `ok`, `eof`, `err`; it leaves `rest` of the input, has consumed
`taken` characters and written `cells`, and leaves the output, the host's and the framer's registers alone. -/
def State.CompletesParsing (s : State) (i : Instr) (steps : Nat) (ok eof : Bool) (err : FailKind) (rest : List Byte)
    (taken : Nat) (cells : List (Addr × Byte)) : Prop :=
  ∃ t u, exec i s = .next t ∧ run steps t = .next u ∧
    u.status = { busy := false, done := true, ok := ok, eof := eof, err := err, drop := false } ∧
    u.idle ∧ u.sameHost s ∧ u.frm = { s.frm with ph := .idle } ∧ u.col.inText = rest ∧
    u.col.inPos = s.col.inPos + taken ∧ u.col.mem = s.col.mem.writeAll cells ∧ u.col.outText = s.col.outText

/-- `CompletesParsing` where the input position is not asked for. -/
theorem State.CompletesParsing.withoutPos {s : State} {i : Instr} {steps taken : Nat} {ok eof : Bool} {err : FailKind}
    {rest : List Byte} {cells : List (Addr × Byte)} (h : s.CompletesParsing i steps ok eof err rest taken cells) :
    ∃ t u, exec i s = .next t ∧ run steps t = .next u ∧
      u.status = { busy := false, done := true, ok := ok, eof := eof, err := err, drop := false } ∧
      u.idle ∧ u.sameHost s ∧ u.frm = { s.frm with ph := .idle } ∧ u.col.inText = rest ∧
      u.col.mem = s.col.mem.writeAll cells ∧ u.col.outText = s.col.outText := by
  obtain ⟨t, u, hexec, hrun, hst, hidle, hhost, hfrm, htext, -, hmem, hout⟩ := h
  exact ⟨t, u, hexec, hrun, hst, hidle, hhost, hfrm, htext, hmem, hout⟩

/-- A run that ends with the completion of an accepted command, the text read on the way. -/
theorem completesParsing_of_run {s t : State} {i : Instr} {steps : Nat} {p : Parser} {c : Collab} {ok eof : Bool}
    {err : FailKind} {text rest : List Byte} {cells : List (Addr × Byte)} (hexec : exec i s = .next t)
    (hst : t.status = { Status.cleared with busy := true }) (hfrm : t.frm = s.frm) (hhost : t.sameHost s)
    (hrun : run steps t = .next ((t.parsing p c).complete ok eof err)) (hc : s.col.Reads text cells c)
    (hin : s.col.inText = text ++ rest) : s.CompletesParsing i steps ok eof err rest text.length cells :=
  ⟨t, _, hexec, hrun, congrArg (·.completed ok eof err) hst, ⟨rfl, rfl, rfl, rfl, rfl⟩,
    (State.complete_sameHost _ _ _ _).trans hhost, congrArg (fun f : Framer => { f with ph := .idle }) hfrm,
    List.append_cancel_left (hc.inText.symm.trans hin), hc.inPos, hc.mem, hc.outText⟩

/-- An accepted command whose last character completes it. -/
theorem State.AcceptsParse.completes {s t : State} {i : Instr} {m : PMode} (ha : s.AcceptsParse i m t) {p : Parser}
    {ok eof : Bool} {err : FailKind} {text rest : List Byte} {cells : List (Addr × Byte)}
    (h : ParserReads t t.prs text cells fun c => (t.parsing p c).complete ok eof err) (hi : s.col.inServes)
    (hm : cells = [] ∨ s.col.memServes) (hin : s.col.inText = text ++ rest) :
    s.CompletesParsing i text.length ok eof err rest text.length cells := by
  rw [← ha.col] at hi hm hin
  obtain ⟨c, hc, hrun⟩ := h t.col rest hi hm hin
  rw [ha.col] at hc hin
  exact completesParsing_of_run ha.exec ha.status ha.frm ha.host hrun hc hin

/-! ## A source with nothing left -/

/-- The Consume that finds the input at its end fails in every phase (42_parser.md R150, 60_exceptions.md R206). -/
theorem parserStep_endOfInput {s : State} (hidle : s.prs.ph ≠ .idle) (hi : s.col.inServes) (ht : s.col.upcoming = []) :
    ∃ c, s.col.Reads [] [] c ∧ parserStep s = .next ((s.withCol c).fail .endOfInput) := by
  obtain ⟨hup, hds⟩ := hi
  have hend (k : Byte → State → Host.Outcome State Fault Refusal) :
      consumeOrFail s k = .next ((s.withCol (s.col.tookNone .eoi s.col.inDraws.tail)).fail .endOfInput) := by
    rcases consumeOrFail_cases s k with ⟨hdown, -⟩ | ⟨-, ds, ch, rest, -, hup', -⟩ | ⟨-, ds, hd, -, he⟩ | ⟨-, ds, hd, -⟩ |
      ⟨-, ds, hd, -⟩
    · simp [hup] at hdown
    · simp [ht] at hup'
    · have htail : s.col.inDraws.tail = ds := by rcases hd with ⟨hb, ha⟩ | hb <;> simp [*]
      rw [he, htail]
    · cases hds .fault (by simp [hd])
    · cases hds .silent (by simp [hd])
  have hserved : s.col.Reads [] [] (s.col.tookNone .eoi s.col.inDraws.tail) :=
    ⟨rfl, rfl, rfl, rfl, rfl, ⟨hup, fun d hd => hds d (List.mem_of_mem_tail hd)⟩, id⟩
  refine ⟨_, hserved, ?_⟩
  by_cases hseek : s.prs.ph = .seek
  · rw [parserStep_seek hseek, hend]
  · rw [parserStep_record hseek hidle, hend]

/-- An accepted command whose input ends before it does. -/
theorem State.AcceptsParse.runsOut {s t : State} {i : Instr} {m : PMode} (ha : s.AcceptsParse i m t) {p : Parser}
    {text : List Byte} {cells : List (Addr × Byte)} (h : ParserReads t t.prs text cells (t.parsing p))
    (hidle : p.ph ≠ .idle) (hi : s.col.inServes) (hm : cells = [] ∨ s.col.memServes) (hin : s.col.inText = text)
    (hloop : s.col.inLoop = []) :
    s.CompletesParsing i (text.length + 1) false false .endOfInput [] text.length cells := by
  have hin' : s.col.inText = text ++ [] := by rw [hin, List.append_nil]
  rw [← ha.col] at hi hm hin' hloop
  obtain ⟨c, hc, hrun⟩ := h t.col [] hi hm hin'
  have hempty : c.inText = [] := List.append_cancel_left (hc.inText.symm.trans hin')
  have hend : c.upcoming = [] := (Collab.upcoming_nil hempty).trans (hc.inLoop.trans hloop)
  obtain ⟨c', hc', hstep⟩ := parserStep_endOfInput (s := t.parsing p c) hidle hc.inServes hend
  have hreads := hc.append hc'
  rw [List.append_nil, List.append_nil, ha.col] at hreads
  rw [ha.col] at hin'
  exact completesParsing_of_run ha.exec ha.status ha.frm ha.host
    ((run_add hrun 1).trans (run_succ ((ha.runs.step p c).trans hstep) 0)) hreads hin'

/-! ## Well-formed texts -/

/-- Settles O47: the record's last character finds its sum 0. -/
theorem prsLineReadsOneRecord : Obligations.PrsLineReadsOneRecord := by
  intro s r text rest hb hu hi hm hstart hwf ht hin
  let t := (s.accepted.begun .prsLine).parseFrom .line
  have ha : s.AcceptsParse .prsLine .line t := accepts_prsLine hb hu
  obtain ⟨⟨hlen, htype⟩, hsum⟩ : (r.lengthOk = true ∧ r.typeOk = true) ∧ sum8 r.bytes = 0 := by
    simpa [Record.wf, Record.sumOk, validBytes] using hwf
  obtain ⟨p, hreads, hacc, htt, hmode⟩ := reads_record ha.runs hstart ha.ph hlen htype ht
  refine ha.completes (p := p) ?_ hi (.inr hm) hin
  have hdone (c : Collab) : (t.parsing p c).checkSum = (t.parsing p c).complete true (r.tt == 0x01) .none := by
    simp [State.checkSum, State.recordDone, hacc, hsum, hmode.trans ha.mode, htt]
  simpa only [hdone] using hreads

/-- Settles O48, by the run of `prsRead_reads_stream`. -/
theorem prsReadReadsTheStream : Obligations.PrsReadReadsTheStream := by
  intro s rs e text rest hb hu hi hm hstart hrs he hett ht hin
  obtain ⟨t, p, c, hexec, hrun, hst, hfrm, hhost, hc⟩ := prsRead_reads_stream hb hu hi hm hstart hrs he hett ht hin
  exact completesParsing_of_run hexec hst hfrm hhost hrun hc hin

/-! ## Failing records -/

/-- Settles O49: the record's last character finds its sum other than 0. -/
theorem badChecksumKeepsTheData : Obligations.BadChecksumKeepsTheData := by
  intro s r text rest hb hu hi hm hstart hlen htype hbad ht hin
  let t := (s.accepted.begun .prsLine).parseFrom .line
  have ha : s.AcceptsParse .prsLine .line t := accepts_prsLine hb hu
  have hsum : sum8 r.bytes ≠ 0 := by simpa [Record.sumOk, validBytes] using hbad
  obtain ⟨p, hreads, hacc, -, -⟩ := reads_record ha.runs hstart ha.ph hlen htype ht
  refine ha.completes (p := p) ?_ hi (.inr hm) hin
  have hfail (c : Collab) : (t.parsing p c).checkSum = (t.parsing p c).complete false false .badChecksum :=
    if_neg (by rwa [State.parsing_prs, hacc])
  simpa only [hfail] using hreads

/-- A byte is two digits. -/
theorem hexPairs_length {digits bs : List Byte} (h : hexPairs digits = some bs) : digits.length = 2 * bs.length := by
  induction bs generalizing digits with
  | nil => rw [hexPairs_eq_nil h]; rfl
  | cons b bs ih =>
    obtain ⟨c₁, c₂, cs, -, -, rfl, -, -, -, hcs⟩ := hexPairs_eq_cons h
    simp only [List.length_cons, ih hcs]
    omega

section
variable {s : State} (hs : s.RunsParser) {p : Parser}
include hs

/-- An illegal type (42_parser.md R157, 60_exceptions.md R206). -/
theorem reads_illegalType (hph : p.ph = .type) (hnib : p.nib = false) {c₁ c₂ : Byte} {hi lo : Nib}
    (h₁ : hexval c₁ = some hi) (h₂ : hexval c₂ = some lo) (htt : ¬ (pairByte hi lo = 0x00 ∨ pairByte hi lo = 0x01)) :
    ParserReads s p [c₁, c₂] [] fun c =>
      (s.parsing { p.tookPair hi (pairByte hi lo) with type := pairByte hi lo } c).fail .badType :=
  reads_pair hs (by simp [hph]) (by simp [hph]) hnib h₁ h₂ fun _ _ => by
    simp only [hexByte, State.parsing_prs, Parser.tookPair, hph]
    exact (recordType_eq _ _).trans (if_neg htt)

/-- A header of illegal type: it fails at its last digit (42_parser.md R157). -/
theorem reads_illegalHeader (hph : p.ph = .len) (hnib : p.nib = false) {digits : List Byte} {ll ahi alo tt : Byte}
    (hd : hexPairs digits = some [ll, ahi, alo, tt]) (htt : ¬ (tt = 0x00 ∨ tt = 0x01)) :
    ∃ p', ParserReads s p digits [] fun c => (s.parsing p' c).fail .badType := by
  obtain ⟨a₁, a₂, _, ha, la, rfl, ha₁, ha₂, rfl, hda⟩ := hexPairs_eq_cons hd
  obtain ⟨b₁, b₂, _, hb, lb, rfl, hb₁, hb₂, rfl, hdb⟩ := hexPairs_eq_cons hda
  obtain ⟨c₁, c₂, _, hc, lc, rfl, hc₁, hc₂, rfl, hdc⟩ := hexPairs_eq_cons hdb
  obtain ⟨d₁, d₂, _, he, ld, rfl, hd₁, hd₂, rfl, hdd⟩ := hexPairs_eq_cons hdc
  obtain rfl := hexPairs_eq_nil hdd
  exact ⟨_, (reads_len hs hnib ha₁ ha₂ hph).append ((reads_adrh hs rfl hb₁ hb₂ rfl).append
    ((reads_adrl hs rfl hc₁ hc₂ rfl).append (reads_illegalType hs rfl rfl hd₁ hd₂ htt)))⟩

/-- A character that is no digit, in place of either digit of a pair (42_parser.md R153). -/
theorem reads_badHex (hseek : p.ph ≠ .seek) (hidle : p.ph ≠ .idle) {ch : Byte} (hch : hexval ch = none) :
    ParserReads s p [ch] [] fun c => (s.parsing p c).fail .badHex :=
  reads_char hs (k := fun s ch t => recordChar s t ch) (fun c => parserStep_record (s := s.parsing p c) hseek hidle)
    fun c c' => by simp only [recordChar, hch]

/-- A part of a record: its header, some of its data bytes and half a pair or none (42_parser.md R153 to R158). -/
theorem reads_partOfRecord (hstart : s.cfg.startOk = true) (hph : p.ph = .seek) {blanks digits half : List Byte}
    {ll ahi alo tt : Byte} {bs : List Byte} (hblanks : ∀ c ∈ blanks, isWs s.cfg c = true)
    (hd : hexPairs digits = some ([ll, ahi, alo, tt] ++ bs)) (htt : tt = 0x00 ∨ tt = 0x01) (hlen : bs.length ≤ ll.toNat)
    (hhalf : half = [] ∨ ∃ c, half = [c] ∧ isHex c = true) :
    ∃ p', ParserReads s p (blanks ++ chColon :: digits ++ half) (dataCells (addrOf ahi alo) bs) (s.parsing p') ∧
      p'.ph ≠ .seek ∧ p'.ph ≠ .idle := by
  obtain ⟨dh, dd, rfl, hh, hdata⟩ := hexPairs_eq_append hd
  obtain ⟨p₁, hr₁, hp₁, haddr⟩ := reads_header hs (p := { p with acc := 0, nib := false, ph := .len }) rfl rfl rfl hh htt
  rw [← Nat.add_sub_cancel' hlen] at hp₁
  obtain ⟨p₂, hr₂, hp₂⟩ := reads_payload hs hdata hp₁
  rw [haddr] at hr₂
  have hwhole := (reads_blanks hs hph hblanks).append ((reads_colon hs hstart hph).append (hr₁.append hr₂))
  have hseek : p₂.ph ≠ .seek := by rw [hp₂.ph]; split <;> exact PPhase.noConfusion
  have hidle : p₂.ph ≠ .idle := by rw [hp₂.ph]; split <;> exact PPhase.noConfusion
  rcases hhalf with rfl | ⟨ch, rfl, hch⟩
  · exact ⟨p₂, by simpa using hwhole, hseek, hidle⟩
  · obtain ⟨hi, hhi⟩ := Option.isSome_iff_exists.mp hch
    exact ⟨{ p₂ with hi := hi, nib := true },
      by simpa using hwhole.append (reads_firstDigit hs hseek hidle hp₂.nib hhi), hseek, hidle⟩

end

/-- Settles O50: whitespace, the start marker, and a header that fails at its last digit. -/
theorem badTypeWritesNothing : Obligations.BadTypeWritesNothing := by
  intro s blanks digits rest ll ahi alo tt hb hu hi hstart hblanks hd htt hin
  let t := (s.accepted.begun .prsLine).parseFrom .line
  have ha : s.AcceptsParse .prsLine .line t := accepts_prsLine hb hu
  have hillegal : ¬ (tt = 0x00 ∨ tt = 0x01) := by rintro (rfl | rfl) <;> simp at htt
  obtain ⟨p, hheader⟩ := reads_illegalHeader ha.runs (p := { t.prs with acc := 0, nib := false, ph := .len }) rfl rfl hd
    hillegal
  have hreads := (reads_blanks ha.runs ha.ph hblanks).append ((reads_colon ha.runs hstart ha.ph).append hheader)
  have hlen : (blanks ++ ([chColon] ++ digits)).length = blanks.length + 9 := by simp [hexPairs_length hd]
  have h := ha.completes hreads hi (.inl rfl) (rest := rest) (by simpa using hin)
  rw [hlen] at h
  exact h

/-- Settles O51: the part of the record is read, and the next Consume gives no digit or nothing. -/
theorem brokenRecordKeepsWholeBytes : Obligations.BrokenRecordKeepsWholeBytes := by
  intro s blanks digits half tail ll ahi alo tt bs hb hu hi hm hstart hblanks hd htt hlen hhalf hin
  let t := (s.accepted.begun .prsLine).parseFrom .line
  have ha : s.AcceptsParse .prsLine .line t := accepts_prsLine hb hu
  obtain ⟨p, hreads, hseek, hidle⟩ := reads_partOfRecord ha.runs hstart ha.ph hblanks hd htt hlen hhalf
  have hsteps : (blanks ++ chColon :: digits ++ half).length = blanks.length + 1 + digits.length + half.length := by
    simp; omega
  rw [← hsteps]
  refine ⟨fun c rest htail hc => ?_, fun htail hloop => ?_⟩
  · have hbad : hexval c = none := by simpa [isHex] using hc
    have h := ha.completes (hreads.append (reads_badHex ha.runs hseek hidle hbad)) hi (.inr hm) (rest := rest)
      (by simpa [htail] using hin)
    rw [List.length_append, List.append_nil] at h
    exact h.withoutPos
  · rw [htail, List.append_nil] at hin
    exact (ha.runsOut hreads hidle hi (.inr hm) hin hloop).withoutPos

/-! ## Seek-start -/

/-- A wrong start character (42_parser.md R152). -/
theorem reads_badStart {s : State} (hs : s.RunsParser) {p : Parser} (hph : p.ph = .seek) {ch : Byte}
    (hws : isWs s.cfg ch = false) (hcolon : ch ≠ chColon) :
    ParserReads s p [ch] [] fun c => (s.parsing p c).fail .badStart :=
  reads_seek hs hph fun _ => (if_neg (by simp [hws])).trans (if_neg hcolon)

/-- Settles O52: after the whitespace, a character that fails or nothing. -/
theorem seekStartFailures : Obligations.SeekStartFailures := by
  intro s i blanks tail hi hb hu hin hblanks ht
  obtain ⟨m, t, ha⟩ : ∃ m t, s.AcceptsParse i m t := by
    rcases hi with rfl | rfl
    · exact ⟨_, _, accepts_prsLine hb hu⟩
    · exact ⟨_, _, accepts_prsRead hb hu⟩
  rw [← ha.host.1] at hblanks ⊢
  have hreads := reads_blanks ha.runs ha.ph hblanks
  refine ⟨fun c rest htail hws hc => ?_, fun htail hloop => ?_⟩
  · have h := ha.completes (hreads.append (reads_badStart ha.runs ha.ph hws hc)) hin (.inl rfl) (rest := rest)
      (by simpa [htail] using ht)
    rw [List.length_append] at h
    exact h.withoutPos
  · rw [htail, List.append_nil] at ht
    exact (ha.runsOut hreads (by simp [ha.ph]) hin (.inl rfl) ht hloop).withoutPos

end Sys2Proof.Machine
end

section
/-! The parser and the pseudocode of 42_parser.md R161 and R162, whatever source and image answer. A part of the pseudocode
stands before the rest `q` of its procedure: the machine settles to both when it settles to `q` wherever the part ends. -/

namespace Sys2Proof.Machine

/-- The value of a procedure handed on as it is. -/
@[simp] theorem Proc.bind_done_self {α : Type} (p : Proc α) : p.bind .done = p := by
  cases p <;> rfl

/-! ## One step -/

/-- If the step from `s` has the outcome `o`, then `s` settles to `q`. -/
def SettlesBy {α : Type} (s : State) (o : Host.Outcome State Fault Refusal) (q : Proc α) (eofOf : α → Bool) : Prop :=
  step s = o → settlesTo s q eofOf

section
variable {s : State} {p p₀ : Parser} {c c₀ : Collab} {α : Type} {eofOf : α → Bool}

/-- A step after which the parser's registers are `p` settles where what follows does. -/
theorem settlesBy_parsing {q : Proc α} (h : settlesTo (s.parsing p c) q eofOf) :
    SettlesBy (s.parsing p₀ c₀) (.next (s.parsing p c)) q eofOf := fun hstep =>
  settlesTo_of_step hstep rfl rfl ⟨rfl, rfl, rfl, rfl, rfl, rfl⟩ h

/-- A step that fails the command (60_exceptions.md R204). -/
theorem settlesBy_fail {k : FailKind} :
    SettlesBy (s.parsing p₀ c₀) (.next ((s.parsing p c).fail k)) (.failed k c) eofOf := fun hstep =>
  ⟨1, _, run_succ hstep 0, rfl, rfl, ⟨rfl, rfl, rfl, rfl, rfl⟩, ⟨rfl, rfl, rfl, rfl, rfl, rfl⟩⟩

/-- A step that completes the command with OK = 1 (43_control.md R196). -/
theorem settlesBy_complete {a : α} :
    SettlesBy (s.parsing p₀ c₀) (.next ((s.parsing p c).complete true (eofOf a) .none)) (.done a c) eofOf := fun hstep =>
  ⟨1, _, run_succ hstep 0, rfl, rfl, ⟨rfl, rfl, rfl, rfl, rfl⟩, ⟨rfl, rfl, rfl, rfl, rfl, rfl⟩⟩

/-- A step that needs an unconnected port (70_reset_and_hazards.md R233, assumption log 9). -/
theorem settlesBy_refused {port : Port} :
    SettlesBy s (.refused (.portUnconnected port)) (.refused port) eofOf := fun hstep => ⟨1, by simp only [run, hstep]⟩

end

section
variable {s : State} (hs : s.RunsParser) {p p₀ : Parser} {c c₀ : Collab} {α : Type} {eofOf : α → Bool}
include hs

/-- A step that meets a port that never answers (43_control.md R196, assumption log 8). -/
theorem settlesBy_awaiting {port : Port} :
    SettlesBy (s.parsing p₀ c₀) (.next ((s.parsing p₀ c₀).awaiting c port)) (.hung c) eofOf := fun hstep =>
  ⟨1, _, run_succ hstep 0, rfl, rfl, rfl, ⟨rfl, rfl, rfl, rfl, rfl, rfl⟩,
    (step_undisturbed (s := (s.parsing p₀ c₀).awaiting c port) hs.undisturbed hs.busy).trans (ihxcStep_waiting rfl)⟩

/-- The parser's step is one Consume, and goes on with the character where the pseudocode does (42_parser.md R150, R165). -/
theorem settlesTo_consume {k : Byte → State → Host.Outcome State Fault Refusal} {q : Byte → Collab → Proc α}
    (hstep : parserStep (s.parsing p c) = consumeOrFail (s.parsing p c) k)
    (h : ∀ ch c', SettlesBy (s.parsing p c) (k ch (s.parsing p c')) (q ch c') eofOf) :
    settlesTo (s.parsing p c) ((consumeProc c).bind q) eofOf := by
  suffices hby : SettlesBy (s.parsing p c) (consumeOrFail (s.parsing p c) k) ((consumeProc c).bind q) eofOf from
    hby ((hs.step p c).trans hstep)
  unfold consumeOrFail consumeProc
  rcases c.consume_cases with ⟨-, he⟩ | ⟨-, ds, ch, rest, -, -, he⟩ | ⟨-, ds, -, -, he⟩ | ⟨-, ds, -, he⟩ |
    ⟨-, ds, -, he⟩ <;> rw [State.parsing_col, he]
  · exact settlesBy_refused
  · exact h ch _
  · exact settlesBy_fail
  · exact settlesBy_fail
  · exact settlesBy_awaiting hs

/-! ## Seek-start and hex pairs (42_parser.md R151 to R153) -/

theorem seekStart_settles (hph : p.ph = .seek) {q : Unit → Collab → Proc α}
    (h : ∀ c', settlesTo (s.parsing { p with acc := 0, nib := false, ph := .len } c') (q () c') eofOf) (fuel : Nat) :
    settlesTo (s.parsing p c) ((seekStart s.cfg fuel c).bind q) eofOf := by
  induction fuel generalizing c with
  | zero => exact ⟨0, _, rfl, rfl, rfl, rfl, State.sameHost.refl _⟩
  | succ fuel ih =>
    rw [seekStart, Proc.bind_assoc]
    refine settlesTo_consume hs (parserStep_seek (s := s.parsing p c) hph) fun ch c' => ?_
    rw [State.seekChar, State.parsing_cfg]
    by_cases hws : isWs s.cfg ch = true
    · rw [if_pos hws, if_pos hws]
      exact settlesBy_parsing ih
    · rw [if_neg hws, if_neg hws]
      by_cases hcolon : ch = chColon
      · rw [if_pos hcolon, if_pos hcolon]
        exact settlesBy_parsing (h c')
      · rw [if_neg hcolon, if_neg hcolon]
        exact settlesBy_fail

/-- A digit of a pair, tested as it is consumed. -/
theorem readDigit_settles (hseek : p.ph ≠ .seek) (hidle : p.ph ≠ .idle) {q : Nib → Collab → Proc α}
    (h : ∀ ch v c', hexval ch = some v →
      SettlesBy (s.parsing p c) (recordChar (s.parsing p c) (s.parsing p c') ch) (q v c') eofOf) :
    settlesTo (s.parsing p c) ((readDigit c).bind q) eofOf := by
  rw [readDigit, Proc.bind_assoc]
  refine settlesTo_consume hs (parserStep_record (s := s.parsing p c) hseek hidle) fun ch c' => ?_
  cases hch : hexval ch with
  | none =>
    simp only [recordChar, hch]
    exact settlesBy_fail
  | some v => exact h ch v c' hch

/-- A pair: what follows begins in the step of its second digit. -/
theorem readHexByte_settles (hseek : p.ph ≠ .seek) (hidle : p.ph ≠ .idle) (hnib : p.nib = false)
    {q : Byte → Collab → Proc α}
    (h : ∀ hi b p₁ c₁ c', SettlesBy (s.parsing p₁ c₁) (hexByte (s.parsing p₁ c₁) (s.parsing (p.tookPair hi b) c') b)
      (q b c') eofOf) :
    settlesTo (s.parsing p c) ((readHexByte c).bind q) eofOf := by
  rw [readHexByte, Proc.bind_assoc]
  refine readDigit_settles hs hseek hidle fun ch₁ hi c₁ hch₁ => ?_
  have hfirst : recordChar (s.parsing p c) (s.parsing p c₁) ch₁ =
      .next (s.parsing { p with hi := hi, nib := true } c₁) := by
    simp [recordChar, hch₁, hnib, State.firstDigit, State.parsing]
  rw [hfirst, Proc.bind_assoc]
  refine settlesBy_parsing
    (readDigit_settles hs (p := { p with hi := hi, nib := true }) hseek hidle fun ch₂ lo c₂ hch₂ => ?_)
  rw [recordChar_secondDigit hch₂]
  exact h hi _ _ _ _

/-! ## The payload and the checksum (42_parser.md R158, R159) -/

/-- A data byte: its MemWrite, in the step of its second digit. -/
theorem settlesBy_dataByte {b : Byte} {q : Unit → Collab → Proc α}
    (h : ∀ c', settlesTo (s.parsing p c').wroteByte (q () c') eofOf) :
    SettlesBy (s.parsing p₀ c₀) (dataByte (s.parsing p₀ c₀) (s.parsing p c) b) ((writeProc p.addr b c).bind q) eofOf := by
  unfold dataByte writeProc
  rcases c.memWrite_cases p.addr b with ⟨-, he⟩ | ⟨-, ds, -, he⟩ | ⟨-, ds, -, he⟩ <;>
    simp only [State.parsing_col, State.parsing_prs, he]
  · exact settlesBy_refused
  · exact settlesBy_parsing (p := (s.parsing p _).wroteByte.prs) (h _)
  · exact settlesBy_awaiting hs

omit hs in
/-- After a data byte, one fewer is left. -/
theorem Parser.InPayload.wroteByte {left : Nat} {acc tt : Byte} {mode : PMode} (hp : p.InPayload (left + 1) acc tt mode)
    (hi : Nib) (b : Byte) : (s.parsing (p.tookPair hi b) c).wroteByte.prs.InPayload left (acc + b) tt mode := by
  have hcnt := hp.cnt
  have hlast : (p.cnt = 1) = (p.cnt - 1 = 0) := by
    rw [eq_iff_iff]
    constructor <;> intro h <;> bv_omega
  refine ⟨?_, rfl, ?_, congrArg (· + b) hp.acc, hp.type, hp.mode⟩
  · simp only [State.wroteByte_prs, State.parsing_prs, Parser.tookPair, hlast]
  · simp only [State.wroteByte_prs, State.parsing_prs, Parser.tookPair]
    bv_omega

theorem readPayload_settles {left : Nat} {a : Addr} {acc tt : Byte} {mode : PMode} (hp : p.InPayload left acc tt mode)
    (ha : p.addr = a) {q : Byte → Collab → Proc α}
    (h : ∀ p' acc' c', p'.InPayload 0 acc' tt mode → settlesTo (s.parsing p' c') (q acc' c') eofOf) :
    settlesTo (s.parsing p c) ((readPayload left a acc c).bind q) eofOf := by
  subst ha
  induction left generalizing p acc c with
  | zero => exact h p acc c hp
  | succ left ih =>
    have hne : p.cnt ≠ 0 := fun hz => by simpa [hz] using hp.cnt
    have hdata : p.ph = .data := hp.ph.trans (if_neg hne)
    rw [readPayload, Proc.bind_assoc]
    refine readHexByte_settles hs (by simp [hdata]) (by simp [hdata]) hp.nib fun hi b p₁ c₁ c' => ?_
    have hbyte : hexByte (s.parsing p₁ c₁) (s.parsing (p.tookPair hi b) c') b =
        dataByte (s.parsing p₁ c₁) (s.parsing (p.tookPair hi b) c') b := by
      simp only [hexByte, State.parsing_prs, Parser.tookPair, hdata]
    rw [hbyte, Proc.bind_assoc]
    exact settlesBy_dataByte hs (p := p.tookPair hi b) fun c'' => ih (hp.wroteByte hi b)

theorem readChecksum_settles {acc tt : Byte} {mode : PMode} (hp : p.InPayload 0 acc tt mode) {q : Byte → Collab → Proc α}
    (h : ∀ p' p₁ c₁ c', p'.type = tt → p'.mode = mode →
      SettlesBy (s.parsing p₁ c₁) (.next (s.parsing p' c').recordDone) (q tt c') eofOf) :
    settlesTo (s.parsing p c) ((readHexByte c).bind fun cc c' =>
      (if acc + cc ≠ 0 then Proc.failed .badChecksum c' else .done tt c').bind q) eofOf := by
  have hcks : p.ph = .cks := hp.ph.trans (if_pos (BitVec.eq_of_toNat_eq hp.cnt))
  refine readHexByte_settles hs (by simp [hcks]) (by simp [hcks]) hp.nib fun hi b p₁ c₁ c' => ?_
  have hbyte : hexByte (s.parsing p₁ c₁) (s.parsing (p.tookPair hi b) c') b =
      .next (s.parsing (p.tookPair hi b) c').checkSum := by
    simp only [hexByte, State.parsing_prs, Parser.tookPair, hcks]
  have hacc : (p.tookPair hi b).acc = acc + b := congrArg (· + b) hp.acc
  rw [hbyte, State.checkSum, State.parsing_prs, hacc]
  by_cases hsum : acc + b = 0
  · rw [if_pos hsum, if_neg (not_not_intro hsum)]
    exact h _ _ _ _ hp.type hp.mode
  · rw [if_neg hsum, if_pos hsum]
    exact settlesBy_fail

/-! ## Records (42_parser.md R154 to R161) -/

section
variable (hnib : p.nib = false) {q : Byte → Collab → Proc α}
include hnib

/-- LL (42_parser.md R154). -/
theorem readLen_settles (hph : p.ph = .len)
    (h : ∀ hi b c', settlesTo (s.parsing { p.tookPair hi b with len := b, cnt := b, ph := .adrh } c') (q b c') eofOf) :
    settlesTo (s.parsing p c) ((readHexByte c).bind q) eofOf :=
  readHexByte_settles hs (by simp [hph]) (by simp [hph]) hnib fun hi b _ _ c' => by
    simp only [hexByte, State.parsing_prs, Parser.tookPair, hph]
    exact settlesBy_parsing (h hi b c')

/-- The high byte of AAAA (42_parser.md R155). -/
theorem readAdrh_settles (hph : p.ph = .adrh)
    (h : ∀ hi b c', settlesTo (s.parsing { p.tookPair hi b with addr := addrOf b 0x00, ph := .adrl } c') (q b c') eofOf) :
    settlesTo (s.parsing p c) ((readHexByte c).bind q) eofOf :=
  readHexByte_settles hs (by simp [hph]) (by simp [hph]) hnib fun hi b _ _ c' => by
    simp only [hexByte, State.parsing_prs, Parser.tookPair, hph]
    exact settlesBy_parsing (h hi b c')

/-- The low byte of AAAA (42_parser.md R155). -/
theorem readAdrl_settles (hph : p.ph = .adrl)
    (h : ∀ hi b c', settlesTo (s.parsing { p.tookPair hi b with addr := addrOf (hiByte p.addr) b, ph := .type } c')
      (q b c') eofOf) :
    settlesTo (s.parsing p c) ((readHexByte c).bind q) eofOf :=
  readHexByte_settles hs (by simp [hph]) (by simp [hph]) hnib fun hi b _ _ c' => by
    simp only [hexByte, State.parsing_prs, Parser.tookPair, hph]
    exact settlesBy_parsing (h hi b c')

/-- TT (42_parser.md R157). -/
theorem readType_settles (hph : p.ph = .type) (hbad : ∀ b c', ¬ (b = 0x00 ∨ b = 0x01) → q b c' = .failed .badType c')
    (h : ∀ hi b c', (b = 0x00 ∨ b = 0x01) →
      settlesTo (s.parsing { p.tookPair hi b with type := b, ph := if p.cnt = 0 then .cks else .data } c') (q b c') eofOf) :
    settlesTo (s.parsing p c) ((readHexByte c).bind q) eofOf :=
  readHexByte_settles hs (by simp [hph]) (by simp [hph]) hnib fun hi b _ _ c' => by
    simp only [hexByte, State.parsing_prs, Parser.tookPair, hph, recordType_eq]
    by_cases htt : b = 0x00 ∨ b = 0x01
    · rw [if_pos htt]
      exact settlesBy_parsing (h hi b c' htt)
    · rw [if_neg htt, hbad b c' htt]
      exact settlesBy_fail

end

/-- A record, with what PRS_LINE or PRS_READ does after it (42_parser.md R161). -/
theorem readRecord_settles (hph : p.ph = .seek) {q : Byte → Collab → Proc α}
    (h : ∀ p' p₁ c₁ c', p'.mode = p.mode →
      SettlesBy (s.parsing p₁ c₁) (.next (s.parsing p' c').recordDone) (q p'.type c') eofOf) (fuel : Nat) :
    settlesTo (s.parsing p c) ((readRecord s.cfg fuel c).bind q) eofOf := by
  simp only [readRecord, Proc.bind_assoc]
  refine seekStart_settles hs hph (fun c₀ => ?_) fuel
  refine readLen_settles hs rfl rfl fun h₁ ll c₁ => ?_
  refine readAdrh_settles hs rfl rfl fun h₂ ahi c₂ => ?_
  refine readAdrl_settles hs rfl rfl fun h₃ alo c₃ => ?_
  refine readType_settles hs rfl rfl (fun tt c₄ htt => ?_) fun h₄ tt c₄ htt => ?_
  · rw [if_pos (not_or.mp htt)]
    rfl
  · rw [if_neg (not_and_or.mpr (htt.imp not_not_intro not_not_intro)), Proc.bind_assoc]
    refine readPayload_settles hs (tt := tt) (mode := p.mode) ?_ ?_ fun p' acc c₅ hp' => ?_
    · exact ⟨rfl, rfl, rfl, by simp [Parser.tookPair], rfl, rfl⟩
    · exact congrArg (addrOf · alo) (hiByte_addrOf ahi 0x00)
    · rw [Proc.bind_assoc]
      exact readChecksum_settles hs hp' fun p'' p₁ c₁ c' htype hmode => htype ▸ h p'' p₁ c₁ c' hmode

/-- PRS_READ (42_parser.md R162). -/
theorem readStream_settles (hph : p.ph = .seek) (hmode : p.mode = .read) (fuel turns : Nat) :
    settlesTo (s.parsing p c) (readStream s.cfg fuel turns c) fun _ => true := by
  induction turns generalizing p c with
  | zero => exact ⟨0, _, rfl, rfl, rfl, rfl, State.sameHost.refl _⟩
  | succ turns ih =>
    refine readRecord_settles hs hph (fun p' p₁ c₁ c' hmode' => ?_) fuel
    have hread : p'.mode = .read := hmode'.trans hmode
    simp only [State.recordDone, State.parsing_prs, hread]
    by_cases htt : p'.type = 0x01
    · rw [if_pos htt, if_pos htt]
      exact settlesBy_complete (eofOf := fun _ => true)
    · rw [if_neg htt, if_neg htt]
      exact settlesBy_parsing (ih rfl rfl)

/-- PRS_LINE (42_parser.md R161). -/
theorem readLine_settles (hph : p.ph = .seek) (hmode : p.mode = .line) (fuel : Nat) :
    settlesTo (s.parsing p c) (readRecord s.cfg fuel c) fun tt => tt == 0x01 := by
  rw [← Proc.bind_done_self (readRecord s.cfg fuel c)]
  refine readRecord_settles hs hph (fun p' p₁ c₁ c' hmode' => ?_) fuel
  simp only [State.recordDone, State.parsing_prs, hmode'.trans hmode]
  exact settlesBy_complete

end

/-! ## An input that ends -/

/-- `p` is not left unfinished, and where it ends, fewer than `n` characters of an input that ends are left. -/
def Proc.endsBelow {α : Type} (p : Proc α) (n : Nat) : Prop :=
  match p with
  | .done _ c => c.inLoop = [] ∧ c.inText.length < n
  | .unfinished _ => False
  | .failed _ _ => True
  | .hung _ => True
  | .refused _ => True

theorem Proc.endsBelow.mono {α : Type} {p : Proc α} {m n : Nat} (h : p.endsBelow m) (hmn : m ≤ n) : p.endsBelow n := by
  cases p with
  | done a c => exact ⟨h.1, h.2.trans_le hmn⟩
  | failed | hung | unfinished | refused => exact h

theorem Proc.endsBelow.bind {α β : Type} {p : Proc α} {k : α → Collab → Proc β} {m n : Nat} (h : p.endsBelow m)
    (hk : ∀ a c, c.inLoop = [] → c.inText.length < m → (k a c).endsBelow n) : (p.bind k).endsBelow n := by
  cases p with
  | done a c => exact hk a c h.1 h.2
  | failed | hung | unfinished | refused => exact h

theorem Proc.endsBelow.ne_unfinished {α : Type} {p : Proc α} {n : Nat} (h : p.endsBelow n) (c : Collab) :
    p ≠ .unfinished c := by
  rintro rfl
  exact h

section
variable {c : Collab} (hc : c.inLoop = [])
include hc

/-- A character consumed is one fewer to come. -/
theorem consumeProc_endsBelow : (consumeProc c).endsBelow c.inText.length := by
  unfold consumeProc
  rcases c.consume_cases with ⟨-, he⟩ | ⟨-, ds, ch, rest, -, hup, he⟩ | ⟨-, ds, -, -, he⟩ | ⟨-, ds, -, he⟩ |
    ⟨-, ds, -, he⟩ <;> simp only [he]
  · trivial
  · have htext : c.inText = ch :: rest := by
      unfold Collab.upcoming at hup
      split at hup
      · simp [hc] at hup
      · exact hup
    exact ⟨hc, by simp [htext]⟩
  all_goals trivial

theorem seekStart_endsBelow (cfg : Config) {fuel : Nat} (hf : c.inText.length < fuel) :
    (seekStart cfg fuel c).endsBelow c.inText.length := by
  induction fuel generalizing c with
  | zero => simp at hf
  | succ fuel ih =>
    refine (consumeProc_endsBelow hc).bind fun ch c' hc' hlt => ?_
    split
    · exact (ih hc' (by omega)).mono hlt.le
    · split
      · exact ⟨hc', hlt⟩
      · trivial

theorem readDigit_endsBelow : (readDigit c).endsBelow c.inText.length := by
  refine (consumeProc_endsBelow hc).bind fun ch c' hc' hlt => ?_
  split
  · exact ⟨hc', hlt⟩
  · trivial

theorem readHexByte_endsBelow : (readHexByte c).endsBelow c.inText.length :=
  (readDigit_endsBelow hc).bind fun _ _ hc₁ hlt₁ => (readDigit_endsBelow hc₁).bind fun _ _ hc₂ hlt₂ =>
    ⟨hc₂, hlt₂.trans hlt₁⟩

theorem writeProc_endsBelow (a : Addr) (v : Byte) : (writeProc a v c).endsBelow (c.inText.length + 1) := by
  unfold writeProc
  rcases c.memWrite_cases a v with ⟨-, he⟩ | ⟨-, ds, -, he⟩ | ⟨-, ds, -, he⟩ <;> simp only [he]
  · trivial
  · exact ⟨hc, Nat.lt_succ_self _⟩
  · trivial

theorem readPayload_endsBelow (n : Nat) (a : Addr) (acc : Byte) :
    (readPayload n a acc c).endsBelow (c.inText.length + 1) := by
  induction n generalizing c a acc with
  | zero => exact ⟨hc, Nat.lt_succ_self _⟩
  | succ n ih =>
    refine (readHexByte_endsBelow hc).bind fun b c₁ hc₁ hlt₁ => ?_
    refine (writeProc_endsBelow hc₁ a b).bind fun _ c₂ hc₂ hlt₂ => ?_
    exact (ih hc₂ _ _).mono (by omega)

theorem readRecord_endsBelow (cfg : Config) {fuel : Nat} (hf : c.inText.length < fuel) :
    (readRecord cfg fuel c).endsBelow c.inText.length := by
  refine (seekStart_endsBelow hc cfg hf).bind fun _ c₀ hc₀ hlt₀ => ?_
  refine (readHexByte_endsBelow hc₀).bind fun ll c₁ hc₁ hlt₁ => ?_
  refine (readHexByte_endsBelow hc₁).bind fun ahi c₂ hc₂ hlt₂ => ?_
  refine (readHexByte_endsBelow hc₂).bind fun alo c₃ hc₃ hlt₃ => ?_
  refine (readHexByte_endsBelow hc₃).bind fun tt c₄ hc₄ hlt₄ => ?_
  split
  · trivial
  · refine (readPayload_endsBelow hc₄ _ _ _).bind fun acc c₅ hc₅ hlt₅ => ?_
    refine (readHexByte_endsBelow hc₅).bind fun cc c₆ hc₆ hlt₆ => ?_
    split
    · trivial
    · exact ⟨hc₆, by omega⟩

theorem readStream_endsBelow (cfg : Config) {fuel turns : Nat} (hf : c.inText.length < fuel)
    (ht : c.inText.length < turns) : (readStream cfg fuel turns c).endsBelow c.inText.length := by
  induction turns generalizing c with
  | zero => simp at ht
  | succ turns ih =>
    refine (readRecord_endsBelow hc cfg hf).bind fun tt c' hc' hlt => ?_
    split
    · exact ⟨hc', hlt⟩
    · exact (ih hc' (by omega) (by omega)).mono hlt.le

end

/-- Settles O46: from its acceptance on, either command settles to its pseudocode, and each record takes a character. -/
theorem parserRefinesThePseudocode : Obligations.ParserRefinesThePseudocode := by
  intro s fuel turns hb hu
  have hline := accepts_prsLine hb hu
  have hread := accepts_prsRead hb hu
  refine ⟨⟨_, hline.exec, readLine_settles hline.runs hline.ph hline.mode fuel⟩,
    ⟨_, hread.exec, readStream_settles hread.runs hread.ph hread.mode fuel turns⟩, fun hloop hfuel hturns => ⟨?_, ?_⟩⟩
  · exact (readRecord_endsBelow hloop s.cfg hfuel).ne_unfinished
  · exact (readStream_endsBelow hloop s.cfg hfuel hturns).ne_unfinished

end Sys2Proof.Machine
end

section
/-! How an operation ends and what keeps it from ending (43_control.md R196): BUSY falls only by a completion or by reset; a port
that never answers, and an input of whitespace without end, keep it at 1. -/

namespace Sys2Proof.Machine

/-! ## The end of an operation -/

/-- An IHXC step that ends an operation is a completion, with success or with a failure kind of an operation. -/
theorem ihxcStep_ends {s t : State} (h : ihxcStep s = .next t) (hb : s.status.busy = true) (hb' : t.status.busy = false) :
    t.idle ∧ ((∃ e, t.status = s.status.completed true e .none) ∨
      ∃ k, k ≠ .none ∧ k ≠ .illegalCmd ∧ t.status = s.status.completed false false k) := by
  rcases ihxcStep_progress h with rfl | ⟨-, hp⟩
  · simp [hb] at hb'
  · cases hp with
    | waits | frames | parses => simp [hb] at hb'
    | succeeds p c eof => exact ⟨⟨rfl, rfl, rfl, rfl, rfl⟩, .inl ⟨eof, rfl⟩⟩
    | @fails f k p c hk =>
      obtain ⟨hnone, hillegal⟩ := hk
      exact ⟨⟨rfl, rfl, rfl, rfl, rfl⟩, .inr ⟨k, hnone, hillegal, rfl⟩⟩

/-- Settles O38: of the moves of a step only IHXC's own and a reset bring BUSY from 1 to 0. -/
theorem busyEndsByCompletionOrReset : Obligations.BusyEndsByCompletionOrReset := by
  intro s t _ h hb hb'
  cases moveOf_of_step h with
  | ihxc hi =>
    obtain ⟨-, haddr, hlen, hck, -, -⟩ := ihxcStep_sameHost hi
    obtain ⟨hidle, hresult⟩ := ihxcStep_ends hi hb hb'
    exact .inr ⟨hidle, haddr, hlen, hck, hresult⟩
  | reset ha => exact .inl ⟨_, ha⟩
  | command _ hidle | platform _ hidle => simp [hidle] at hb
  | drop | write | read => simp [State.plainWrite_eq, hb] at hb'

/-! ## A port that never answers -/

theorem State.Inv.parser {s : State} (hs : s.Inv) (hop : s.op.isParser = true) :
    s.status.busy = true ∧ s.prs.ph ≠ .idle := by
  have hco := hs.op
  unfold State.opCoherent at hco
  cases ho : s.op <;> simp only [ho, Op.isParser, Bool.false_eq_true] at hop hco <;>
    obtain ⟨hb, -, -, hph⟩ := hco <;> exact ⟨hb, hph⟩

theorem State.Inv.framer {s : State} (hs : s.Inv) (hop : s.op.isFramer = true) :
    s.status.busy = true ∧ s.frm.ph ≠ .idle ∧ (s.frm.ph = .line → s.frm.mode ≠ .fin) ∧
      (s.frm.mode = .data → s.op = .frmData) := by
  have hco := hs.op
  unfold State.opCoherent at hco
  cases ho : s.op <;> simp only [ho, Op.isFramer, Bool.false_eq_true] at hop hco <;>
    obtain ⟨hb, hph, hm, -⟩ := hco <;> simp [hb, hph, hm]

section
variable {s : State} (hs : s.Inv) (hu : s.undisturbed) (hw : s.waiting = none)
include hs hu hw

theorem State.Inv.runsParser (hop : s.op.isParser = true) : s.RunsParser := ⟨hu, (hs.parser hop).1, hop, hw⟩

theorem State.Inv.runsFramer (hop : s.op.isFramer = true) : s.RunsFramer := ⟨hu, (hs.framer hop).1, hop, hw⟩

end

/-- Once the step waits at a port, an operation whose host at most waits too stays as it is. -/
theorem stallsAt_of_step {s : State} {c : Collab} {p : Port} (hu : s.undisturbed) (hb : s.status.busy = true)
    (h : step s = .next (s.awaiting c p)) : s.stallsAt c p :=
  ⟨h, run_waiting (s := s.awaiting c p) hu hb rfl⟩

theorem State.RunsParser.stallsAt {s : State} (hs : s.RunsParser) {c : Collab} {p : Port}
    (h : parserStep s = .next (s.awaiting c p)) : s.stallsAt c p :=
  stallsAt_of_step hs.undisturbed hs.busy ((hs.step s.prs s.col).trans h)

theorem State.RunsFramer.stallsAt {s : State} (hs : s.RunsFramer) {c : Collab} {p : Port}
    (h : framerStep s = .next (s.awaiting c p)) : s.stallsAt c p :=
  stallsAt_of_step hs.undisturbed hs.busy ((hs.step s.frm s.col).trans h)

/-! ### The ports -/

theorem Collab.consume_silent {c : Collab} {ds : List Draw} (hup : c.inUp = true) (hd : c.inDraws = .silent :: ds) :
    c.consume = .silent := by simp [Collab.consume, hup, hd]

theorem Collab.memWrite_silent {c : Collab} {ds : List MemDraw} (hup : c.memUp = true) (hd : c.memDraws = .silent :: ds)
    (a : Addr) (v : Byte) : c.memWrite a v = .silent := by simp [Collab.memWrite, hup, hd]

theorem Collab.memRead_silent {c : Collab} {ds : List MemDraw} (hup : c.memUp = true) (hd : c.memDraws = .silent :: ds)
    (a : Addr) : c.memRead a = .silent := by simp [Collab.memRead, hup, hd]

theorem emitOrFail_silent {s t : State} {ds : List Draw} (hup : t.col.outUp = true) (hd : t.col.outDraws = .silent :: ds)
    (ch : Byte) (k : State → State) : emitOrFail s t ch k = .next (s.awaiting t.col .out) := by
  simp [emitOrFail, Collab.emit, hup, hd]

/-- A Consume leaves MEM and its answers to come alone. -/
theorem Collab.consume_memDraws {c c' : Collab} {r : InAnswer} (h : c.consume = .answer r c') :
    c'.memUp = c.memUp ∧ c'.memDraws = c.memDraws := by
  rcases c.consume_cases with ⟨-, he⟩ | ⟨-, ds, ch, rest, -, -, he⟩ | ⟨-, ds, -, -, he⟩ | ⟨-, ds, -, he⟩ |
    ⟨-, ds, -, he⟩ <;> rw [he] at h <;> cases h <;> exact ⟨rfl, rfl⟩

/-- A MemRead leaves OUT and its answers to come alone. -/
theorem Collab.memRead_outDraws {c c' : Collab} {a : Addr} {v : Byte} (h : c.memRead a = .answer v c') :
    c'.outUp = c.outUp ∧ c'.outDraws = c.outDraws := by
  rcases c.memRead_cases a with ⟨-, he⟩ | ⟨-, ds, -, he⟩ | ⟨-, ds, -, he⟩ <;> rw [he] at h <;> cases h
  exact ⟨rfl, rfl⟩

/-! ### The parser's step -/

/-- Every parser step begins with its Consume (42_parser.md R165). -/
theorem parserStep_inputSilent {s : State} (hidle : s.prs.ph ≠ .idle) (h : s.col.consume = .silent) :
    parserStep s = .next (s.awaiting s.col .inp) := by
  by_cases hseek : s.prs.ph = .seek
  · simp only [parserStep_seek hseek, consumeOrFail, h]
  · simp only [parserStep_record hseek hidle, consumeOrFail, h]

/-- The second digit of a data byte has been consumed when its MemWrite is not answered (42_parser.md R158). -/
theorem parserStep_writeSilent {s : State} {ch : Byte} {c : Collab} (hph : s.prs.ph = .data) (hnib : s.prs.nib = true)
    (hc : s.col.consume = .answer (.chr ch) c) (hch : isHex ch = true) (hm : ∀ a v, c.memWrite a v = .silent) :
    parserStep s = .next (s.awaiting c .mem) := by
  obtain ⟨v, hv⟩ := Option.isSome_iff_exists.mp hch
  have hstep := parserStep_record (s := s) (by simp [hph]) (by simp [hph])
  rw [hstep, consumeOrFail_chr hc]
  simp [recordChar, hexByte, dataByte, hv, hnib, hph, hm]

/-! ### The framer's step -/

/-- At a data byte's first digit the framer reads the byte (41_framer.md R125). -/
theorem framerStep_atDataByte {s : State} (hs : s.Inv) (hop : s.op.isFramer = true) (hph : s.frm.ph = .line)
    (hd : atDataByte s.frm = true) : framerStep s = dataByteStep s (dataByteAddr s.frm) := by
  obtain ⟨-, -, hmode, -⟩ := hs.framer hop
  have h0 : s.frm.pos ≠ 0 := fun h => by simp [atDataByte, h] at hd
  exact framerStep_first hph (hmode hph) h0 hd

/-- Every framer step emits, but the one of an empty FRM_DATA; it reads first only at a data byte (41_framer.md R125). -/
theorem framerStep_outputSilent {s : State} {ds : List Draw} (hs : s.Inv) (hop : s.op.isFramer = true)
    (hempty : ¬ (s.op = .frmData ∧ s.frm.pos = 0 ∧ s.frm.rem = 0)) (hread : ¬ (s.frm.ph = .line ∧ atDataByte s.frm = true))
    (hup : s.col.outUp = true) (hd : s.col.outDraws = .silent :: ds) : framerStep s = .next (s.awaiting s.col .out) := by
  obtain ⟨-, hidle, hmode, hdata⟩ := hs.framer hop
  rcases framerStep_cases s with ⟨he, -⟩ | ⟨-, hm, h0, hr, -⟩ | ⟨-, -, -, -, he⟩ | ⟨-, -, -, -, he⟩ | ⟨-, -, -, -, -, he⟩ |
    ⟨hph, -, -, hat, -⟩ | ⟨-, -, -, -, he⟩ | ⟨-, -, ch, -, he⟩
  · exact absurd he (framerStep_ne_fault hidle hmode hs.frm _)
  · exact absurd ⟨hdata hm, h0, hr⟩ hempty
  · exact he.trans (emitOrFail_silent (t := s.frameLiteral .all) hup hd _ _)
  · exact he.trans (emitOrFail_silent (t := s.openLine) hup hd _ _)
  · exact he.trans (emitOrFail_silent hup hd _ _)
  · exact absurd ⟨hph, hat⟩ hread
  · exact he.trans (emitOrFail_silent hup hd _ _)
  · exact he.trans (emitOrFail_silent hup hd _ _)

/-- Settles O40: each clause is the step of a unit that meets the silent port, after which the machine stays. -/
theorem silentPortKeepsBusy : Obligations.SilentPortKeepsBusy := by
  intro s hs hu hw
  refine ⟨fun ds hop hup hd => ?_, fun ch c ds hop hph hnib hc hch hup hd => ?_,
    fun ds hop hempty hread hup hd => ?_, fun ds hop hph hat hup hd => ?_, fun v c ds hop hph hat hc hup hd => ?_⟩
  · exact (hs.runsParser hu hw hop).stallsAt (parserStep_inputSilent (hs.parser hop).2 (Collab.consume_silent hup hd))
  · obtain ⟨hup', hd'⟩ := Collab.consume_memDraws hc
    have hsilent := Collab.memWrite_silent (hup'.trans hup) (hd'.trans hd)
    exact (hs.runsParser hu hw hop).stallsAt (parserStep_writeSilent hph hnib hc hch hsilent)
  · exact (hs.runsFramer hu hw hop).stallsAt (framerStep_outputSilent hs hop hempty hread hup hd)
  · refine (hs.runsFramer hu hw hop).stallsAt ?_
    simp only [framerStep_atDataByte hs hop hph hat, dataByteStep, Collab.memRead_silent hup hd]
  · obtain ⟨hup', hd'⟩ := Collab.memRead_outDraws hc
    refine (hs.runsFramer hu hw hop).stallsAt ?_
    simp only [framerStep_atDataByte hs hop hph hat, dataByteStep, hc]
    exact emitOrFail_silent (t := (s.withCol c).tookByte v) (hup'.trans hup) (hd'.trans hd) _ _

/-! ## Whitespace without end -/

/-- A source that serves every call and has nothing but whitespace to give, for ever (assumption log 23). -/
structure Collab.EndlessBlanks (cfg : Config) (c : Collab) : Prop where
  serves : c.inServes
  text : ∀ ch ∈ c.inText, isWs cfg ch = true
  loop : ∀ ch ∈ c.inLoop, isWs cfg ch = true
  endless : c.inLoop ≠ []

/-- `c'` is `c` with `n` more characters consumed, image and output as they were. -/
def Collab.Consumed (c : Collab) (n : Nat) (c' : Collab) : Prop :=
  c'.inPos = c.inPos + n ∧ c'.mem = c.mem ∧ c'.outText = c.outText

theorem Collab.EndlessBlanks.upcoming {cfg : Config} {c : Collab} (h : c.EndlessBlanks cfg) :
    c.upcoming ≠ [] ∧ ∀ ch ∈ c.upcoming, isWs cfg ch = true := by
  unfold Collab.upcoming
  split
  · exact ⟨h.endless, h.loop⟩
  · next hne => exact ⟨hne, h.text⟩

/-- Such a source gives a blank and is still such a source. -/
theorem Collab.EndlessBlanks.consume {cfg : Config} {c : Collab} (h : c.EndlessBlanks cfg) :
    ∃ ch c', c.consume = .answer (.chr ch) c' ∧ isWs cfg ch = true ∧ c'.EndlessBlanks cfg ∧ c.Consumed 1 c' := by
  obtain ⟨hne, hws⟩ := h.upcoming
  obtain ⟨hup, hds⟩ := h.serves
  rcases c.consume_cases with ⟨hdown, -⟩ | ⟨-, ds, ch, rest, hd, hnext, he⟩ | ⟨-, ds, -, hnext, -⟩ | ⟨-, ds, hd, -⟩ |
    ⟨-, ds, hd, -⟩
  · simp [hup] at hdown
  · rw [hnext] at hws
    have hserved : allServed ds := by
      rcases hd with ⟨-, rfl⟩ | hd
      · simp [allServed]
      · exact fun d hmem => hds d (by simp [hd, hmem])
    have hrest : ∀ x ∈ rest, isWs cfg x = true := fun x hx => hws x (List.mem_cons_of_mem _ hx)
    exact ⟨ch, _, he, hws ch (by simp), ⟨⟨hup, hserved⟩, hrest, h.loop, h.endless⟩, rfl, rfl, rfl⟩
  · exact absurd hnext hne
  · cases hds .fault (by simp [hd])
  · cases hds .silent (by simp [hd])

/-- In phase SEEK the parser skips a blank a step and stays where it is (42_parser.md R151). -/
theorem run_endlessBlanks {s : State} (hs : s.RunsParser) {p : Parser} (hph : p.ph = .seek) {c : Collab}
    (hc : c.EndlessBlanks s.cfg) (n : Nat) :
    ∃ c', run n (s.parsing p c) = .next (s.parsing p c') ∧ c.Consumed n c' := by
  induction n generalizing c with
  | zero => exact ⟨c, rfl, rfl, rfl, rfl⟩
  | succ n ih =>
    obtain ⟨ch, c₁, hconsume, hws, hc₁, hpos₁, hmem₁, hout₁⟩ := hc.consume
    have hstep : step (s.parsing p c) = .next (s.parsing p c₁) := by
      rw [hs.step, parserStep_seek (s := s.parsing p c) hph, consumeOrFail_chr (s := s.parsing p c) hconsume]
      exact congrArg _ (if_pos hws)
    obtain ⟨c', hrun, hpos, hmem, hout⟩ := ih hc₁
    exact ⟨c', (run_succ hstep n).trans hrun, by omega, hmem.trans hmem₁, hout.trans hout₁⟩

/-- An accepted parser command never gets past the blanks. -/
theorem State.AcceptsParse.skipsForEver {s t : State} {i : Instr} {m : PMode} (ha : s.AcceptsParse i m t)
    (hc : s.col.EndlessBlanks s.cfg) (n : Nat) :
    ∃ u, run n t = .next u ∧ u.status = t.status ∧ u.status.busy = true ∧ u.op = t.op ∧ u.prs = t.prs ∧
      u.frm = s.frm ∧ u.sameHost s ∧ u.col.inPos = s.col.inPos + n ∧ u.col.mem = s.col.mem ∧
      u.col.outText = s.col.outText := by
  obtain ⟨hcfg, -⟩ := ha.host
  rw [← ha.col, ← hcfg] at hc
  obtain ⟨c, hrun, hpos, hmem, hout⟩ := run_endlessBlanks ha.runs ha.ph hc n
  rw [ha.col] at hpos hmem hout
  exact ⟨t.parsing t.prs c, hrun, rfl, ha.runs.busy, rfl, rfl, ha.frm, (t.withCol_sameHost c).trans ha.host, hpos, hmem, hout⟩

/-- Settles O54: both commands begin in phase SEEK, where every character the source ever gives is skipped. -/
theorem endlessBlanksKeepBusy : Obligations.EndlessBlanksKeepBusy := by
  intro s i hi hb hu hserves htext hne hloop
  have hc : s.col.EndlessBlanks s.cfg := ⟨hserves, htext, hloop, hne⟩
  rcases hi with rfl | rfl
  · have ha := accepts_prsLine hb hu
    exact ⟨_, ha.exec, ha.skipsForEver hc⟩
  · have ha := accepts_prsRead hb hu
    exact ⟨_, ha.exec, ha.skipsForEver hc⟩

end Sys2Proof.Machine
end

section
/-! The host's accesses to the registers (43_control.md R190, R191, R194, R195) and what acceptance of each command leaves
(R190, R192, R193). -/

namespace Sys2Proof.Machine

/-! ## Register accesses -/

/-- Settles O11: the first move of the agenda is the step, and a CTRL write runs what its word decodes to. -/
theorem stepRunsTheCommand : Obligations.StepRunsTheCommand := fun s _ ms ha =>
  ⟨fun _ hi => (step_ctrlWrite ha).trans (ctrlWrite_command hi (s.withAgenda ms)),
    fun _ he => (step_ctrlWrite ha).trans (ctrlWrite_illegal he (s.withAgenda ms))⟩

/-- Settles O21: with BUSY = 1 no word's own effect is reached. -/
theorem commandWhileBusyIsDropped : Obligations.CommandWhileBusyIsDropped := fun s w ms ha hb =>
  (step_ctrlWrite ha).trans (ctrlWrite_busy (s := s.withAgenda ms) w hb)

/-- Settles O23: a read is `State.hostRead`, and `State.regValue` compares register numbers. -/
theorem registerReads : Obligations.RegisterReads := fun _ _ _ ha =>
  ⟨step_read ha, rfl, rfl, rfl, rfl, rfl, rfl, rfl, rfl⟩

/-- A write to any register but CTRL, at the head of the agenda (43_control.md R195). -/
theorem step_plainWrite {s : State} {r : BitVec 3} {w : Word} {ms : List Move} (hr : r ≠ regCtrl)
    (h : s.agenda = .write r w :: ms) : step s = .next ((s.withAgenda ms).plainWrite r w) := by
  simp [step, agendaStep, h, makeMove, hostWrite, hr]

/-- STATUS, CK_ACC, CK_OUT and the reserved registers ignore a write (43_control.md R195). -/
theorem State.plainWrite_ignored {r : BitVec 3} (haddr : r ≠ regAddr) (hlen : r ≠ regLen) (s : State) (w : Word) :
    s.plainWrite r w = s := by
  simp [State.plainWrite, haddr, hlen]

/-- Settles O25: by the register written. -/
theorem registerWrites : Obligations.RegisterWrites := by
  intro s r w ms ha
  refine ⟨?_, ?_, ?_, fun hr => ?_⟩
  · rintro rfl
    exact step_ctrlWrite ha
  · rintro rfl
    exact step_plainWrite (by decide) ha
  · rintro rfl
    exact ⟨lenField s.cfg w, BitVec.toNat_ofNat _ _, step_plainWrite (by decide) ha⟩
  · have hother : r ≠ regCtrl ∧ r ≠ regAddr ∧ r ≠ regLen := by
      rcases hr with rfl | rfl | rfl | rfl | rfl <;> decide
    obtain ⟨hctrl, haddr, hlen⟩ := hother
    rw [step_plainWrite hctrl ha, State.plainWrite_ignored haddr hlen]
    rfl

/-! ## Acceptance -/

/-- NOP on an idle machine (43_control.md R192). -/
theorem exec_nop_idle {s : State} (h : s.status.busy = false) :
    exec .nop s = .next (s.accepted.complete true false .none) :=
  acceptOrDrop_idle h fun t => t.complete true false .none

/-- With no operation to end, a completion changes STATUS alone (43_control.md R193, R196). -/
theorem State.idle.complete_eq {s : State} (h : s.idle) (ok eof : Bool) (err : FailKind) :
    s.accepted.complete ok eof err = { s with status := Status.cleared.completed ok eof err } := by
  obtain ⟨-, hop, hwait, hf, hp⟩ := h
  have hfrm : { s.frm with ph := .idle } = s.frm := by rw [← hf]
  have hprs : { s.prs with ph := .idle } = s.prs := by rw [← hp]
  simp [State.complete, hop, hwait, hfrm, hprs, State.accepted]

/-- STATUS as read while CK_ACC = 0: CKZ is set (10_state.md R25). -/
theorem State.statusWord_of_ckAcc_zero {s : State} (h : s.ckAcc = 0) : s.statusWord = statusBits s.status true := by
  simp [State.statusWord, State.ckz, h]

theorem statusBits_success : statusBits (Status.cleared.completed true false .none) true = 0x00000206 := by decide

theorem statusBits_illegalCmd : statusBits (Status.cleared.completed false false .illegalCmd) true = 0x00000282 := by decide

/-- Settles O15: acceptance and completion are one step. -/
theorem nopCompletes : Obligations.NopCompletes := by
  refine ⟨decodeCommand_encode (i := .nop) rfl, fun s hb => exec_nop_idle hb, fun s t hb hck h => ?_⟩
  have hzero : (s.accepted.complete true false .none).ckAcc = 0 := hck
  rw [exec_nop_idle hb] at h
  cases h
  exact (State.statusWord_of_ckAcc_zero hzero).trans statusBits_success

/-- An illegal word on an idle machine is a failure, which changes STATUS alone (43_control.md R193). -/
theorem ctrlWrite_illegal_idle {s : State} {w : Word} (h : s.idle) (hd : decodeCommand w = .error .illegalCommand) :
    ctrlWrite w s = .next { s with status := Status.cleared.completed false false .illegalCmd } := by
  have hb : s.status.busy = false := h.1
  rw [ctrlWrite_illegal hd, illegalCommand_idle hb, State.fail, h.complete_eq]

/-- Settles O18: acceptance and failure are one step; the corner words differ from CK_ADD in a reserved bit or opcode. -/
theorem illegalCommandCompletes : Obligations.IllegalCommandCompletes := by
  refine ⟨fun s w hidle hd => ctrlWrite_illegal_idle hidle hd, fun s t w hidle hck hd h => ?_,
    by decide, by decide, by decide, by decide, by decide, by decide⟩
  have hzero : (s.accepted.fail .illegalCmd).ckAcc = 0 := hck
  obtain ⟨hb, -⟩ := hidle
  rw [ctrlWrite_illegal hd, illegalCommand_idle hb] at h
  cases h
  exact (State.statusWord_of_ckAcc_zero hzero).trans statusBits_illegalCmd

/-- Settles O20: each command's own effect on an idle machine; the checksum unit's, NOP and an illegal word complete in it. -/
theorem acceptanceStep : Obligations.AcceptanceStep := by
  refine ⟨fun s hb => acceptOrDrop_idle hb fun t => (t.begun .frmData).frameArgs .data,
    fun s hb => acceptOrDrop_idle hb fun t => (t.begun .frmAll).frameArgs .all,
    fun s hb => acceptOrDrop_idle hb fun t => (t.begun .frmEnd).frameLiteral .fin,
    fun s hb => acceptOrDrop_idle hb fun t => (t.begun .prsLine).parseFrom .line,
    fun s hb => acceptOrDrop_idle hb fun t => (t.begun .prsRead).parseFrom .read, fun s w r hb hd hr => ?_⟩
  rcases hr with rfl | rfl | ⟨b, rfl⟩ | rfl
  · exact ⟨_, (ctrlWrite_command hd s).trans (exec_nop_idle hb), rfl, rfl, rfl, rfl, rfl⟩
  · exact ⟨_, (ctrlWrite_command hd s).trans (exec_ckClr_idle hb), rfl, rfl, rfl, rfl, rfl⟩
  · exact ⟨_, (ctrlWrite_command hd s).trans (exec_ckAdd_idle b hb), rfl, rfl, rfl, rfl, rfl⟩
  · exact ⟨_, (ctrlWrite_illegal hd s).trans (illegalCommand_idle hb), rfl, rfl, rfl, rfl, rfl⟩

end Sys2Proof.Machine
end

section
/-! What no failure stops (60_exceptions.md R204, R215): a meaning always answers a next state, and with no operation and no move
to make the machine stays as it is (70_reset_and_hazards.md R232). -/

namespace Sys2Proof.Machine

/-- Settles O14: a command is accepted, completed or dropped, and a record type begins its payload; none of these stops. -/
theorem everyInstructionAnswersNext : Obligations.EveryInstructionAnswersNext := by
  intro i s
  obtain ⟨t, hnext, -⟩ := exec_keeps i s
  exact ⟨t, hnext⟩

/-- With no operation IHXC's step changes nothing, whether or not a transaction is outstanding (60_exceptions.md R215). -/
theorem ihxcStep_noOperation {s : State} (hop : s.op = .none) : ihxcStep s = .next s := by
  cases hw : s.waiting with
  | none => rw [ihxcStep_free hw, operationStep, hop]
  | some p => exact ihxcStep_waiting hw

/-- With nothing on the agenda a step is IHXC's own (10_state.md R21). -/
theorem step_noMove {s : State} (ha : s.agenda = []) : step s = ihxcStep s := by
  rcases step_cases s with ⟨-, he⟩ | ⟨m, ms, hcons, -⟩
  · exact he
  · simp [ha] at hcons

/-- Settles O39: such a state is its own next state, so it is never left; the state after reset is one. -/
theorem idleStateSurvives : Obligations.IdleStateSurvives := by
  have survives (s : State) (n : Nat) (hop : s.op = .none) (ha : s.agenda = []) : run n s = .next s :=
    run_stays ((step_noMove ha).trans (ihxcStep_noOperation hop)) n
  exact ⟨survives, fun n => survives State.reset n rfl rfl⟩

end Sys2Proof.Machine
end

section
/-! Reset (70_reset_and_hazards.md R230 to R232; 10_state.md R38), and the two reasons a step is refused (R233, R236). -/

namespace Sys2Proof.Machine

/-! ## Refusals -/

/-- The refusals of a port nothing is connected to (70_reset_and_hazards.md R233). -/
inductive Collab.Refuses (c : Collab) : Refusal → Prop
  | mem (h : c.memUp = false) : c.Refuses (.portUnconnected .mem)
  | inp (h : c.inUp = false) : c.Refuses (.portUnconnected .inp)
  | out (h : c.outUp = false) : c.Refuses (.portUnconnected .out)

/-- `t` is the state after the step's register updates and its MemRead, which connect or disconnect nothing. -/
theorem emitOrFail_refused {s t : State} {ch : Byte} {k : State → State} {r : Refusal} (ht : t.col.outUp = s.col.outUp)
    (h : emitOrFail s t ch k = .refused r) : s.col.Refuses r := by
  rcases emitOrFail_cases s t ch k with ⟨hu, he⟩ | ⟨-, ds, -, he⟩ | ⟨-, ds, -, he⟩ | ⟨-, ds, -, he⟩ <;> rw [he] at h <;>
    cases h
  exact .out (ht ▸ hu)

/-- The framer is refused by MEM where it reads a byte, else by OUT (41_framer.md R125). -/
theorem framerStep_refused {s : State} {r : Refusal} (h : framerStep s = .refused r) : s.col.Refuses r := by
  rcases framerStep_cases s with ⟨he, -⟩ | ⟨-, -, -, -, he⟩ | ⟨-, -, -, -, he⟩ | ⟨-, -, -, -, he⟩ |
    ⟨-, -, -, -, -, he⟩ | ⟨-, -, -, -, -, ⟨hu, he⟩ | ⟨-, ds, -, he⟩ | ⟨-, ds, -, he⟩⟩ | ⟨-, -, -, -, he⟩ |
    ⟨-, -, ch, -, he⟩ <;> rw [he] at h
  · cases h
  · cases h
  · exact emitOrFail_refused (t := s.frameLiteral .all) rfl h
  · exact emitOrFail_refused (t := s.openLine) rfl h
  · exact emitOrFail_refused (t := s) rfl h
  · cases h
    exact .mem hu
  · cases h
  · exact emitOrFail_refused (t := s.readByte _ ds) rfl h
  · exact emitOrFail_refused (t := s) rfl h
  · exact emitOrFail_refused (t := s) rfl h

theorem consumeOrFail_refused {s : State} {k : Byte → State → Host.Outcome State Fault Refusal} {r : Refusal}
    (hk : ∀ ch t, t.col.memUp = s.col.memUp → k ch t = .refused r → s.col.Refuses r)
    (h : consumeOrFail s k = .refused r) : s.col.Refuses r := by
  rcases consumeOrFail_cases s k with ⟨hu, he⟩ | ⟨-, ds, ch, rest, -, -, he⟩ | ⟨-, ds, -, -, he⟩ | ⟨-, ds, -, he⟩ |
    ⟨-, ds, -, he⟩ <;> rw [he] at h
  · cases h
    exact .inp hu
  · exact hk ch (s.withCol _) (s.col.took_memUp ch rest ds) h
  all_goals cases h

theorem recordType_ne_refused (s : State) (b : Byte) (r : Refusal) : recordType s b ≠ .refused r := by
  rw [recordType_eq]
  split <;> simp

section
variable {s t : State} (ht : t.col.memUp = s.col.memUp) {r : Refusal}
include ht

theorem dataByte_refused {b : Byte} (h : dataByte s t b = .refused r) : s.col.Refuses r := by
  rcases t.col.memWrite_cases t.prs.addr b with ⟨hu, he⟩ | ⟨-, ds, -, he⟩ | ⟨-, ds, -, he⟩ <;>
    simp only [dataByte, he] at h <;> cases h
  exact .mem (ht ▸ hu)

/-- After its Consume a record character needs a port only to store a data byte (42_parser.md R158, R165). -/
theorem recordChar_refused {c : Byte} (h : recordChar s t c = .refused r) : s.col.Refuses r := by
  unfold recordChar at h
  split at h
  · cases h
  · split at h
    · cases hp : t.prs.ph <;> simp only [hexByte, State.tookPair_prs, hp] at h
      case type => exact absurd h (recordType_ne_refused _ _ _)
      case data => exact dataByte_refused (t := t.tookPair _) ht h
      all_goals cases h
    · cases h

end

theorem parserStep_refused {s : State} {r : Refusal} (h : parserStep s = .refused r) : s.col.Refuses r := by
  by_cases hi : s.prs.ph = .idle
  · simp [parserStep, hi] at h
  by_cases hs : s.prs.ph = .seek
  · rw [parserStep_seek hs] at h
    exact consumeOrFail_refused (fun _ _ _ hc => by cases hc) h
  · rw [parserStep_record hs hi] at h
    exact consumeOrFail_refused (fun _ _ ht hc => recordChar_refused ht hc) h

/-- IHXC's step is refused only by a port nothing is connected to (70_reset_and_hazards.md R233). -/
theorem ihxcStep_refused {s : State} {r : Refusal} (h : ihxcStep s = .refused r) : s.col.Refuses r := by
  cases hw : s.waiting with
  | some p =>
    rw [ihxcStep_waiting hw] at h
    cases h
  | none =>
    rw [ihxcStep_free hw] at h
    cases ho : s.op <;> simp only [operationStep, ho] at h
    case none => cases h
    case frmData | frmEnd | frmAll => exact framerStep_refused h
    case prsLine | prsRead => exact parserStep_refused h

/-- A write to CTRL is never refused, whatever its word decodes to (43_control.md R190, R191, R193). -/
theorem ctrlWrite_ne_refused (s : State) (w : Word) (r : Refusal) : ctrlWrite w s ≠ .refused r := by
  cases hd : decodeCommand w with
  | ok i =>
    obtain ⟨t, he⟩ := everyInstructionAnswersNext i s
    simp [ctrlWrite_command hd, he]
  | error e => simp [ctrlWrite_illegal hd, illegalCommand, acceptOrDrop]

theorem hostWrite_ne_refused (s : State) (reg : BitVec 3) (w : Word) (r : Refusal) : hostWrite reg w s ≠ .refused r := by
  unfold hostWrite
  split
  · exact ctrlWrite_ne_refused s w r
  · simp

/-- Of the agents' moves IHXC's can lack a port, and the platform's can meet a running operation; the host's always have a
step. -/
theorem makeMove_refused {m : Move} {s : State} {r : Refusal} (h : makeMove m s = .refused r) :
    (∃ p, m = .platform p ∧ r = .foreignAccess ∧ s.status.busy = true) ∨ s.col.Refuses r := by
  cases m with
  | write reg w => exact absurd h (hostWrite_ne_refused s reg w r)
  | read | reset => cases h
  | wait =>
    simp only [makeMove] at h
    split at h
    · exact .inr (ihxcStep_refused (s := s.withAgenda (.wait :: s.agenda)) h)
    · cases h
  | ihxc => exact .inr (ihxcStep_refused h)
  | platform p =>
    simp only [makeMove, platformMove] at h
    split at h <;> cases h
    next hb => exact .inl ⟨p, rfl, rfl, hb⟩

theorem step_refused {s : State} {r : Refusal} (h : step s = .refused r) :
    (∃ p ms, r = .foreignAccess ∧ s.agenda = .platform p :: ms ∧ s.status.busy = true) ∨ s.col.Refuses r := by
  rcases step_cases s with ⟨-, he⟩ | ⟨m, ms, ha, he⟩ <;> rw [he] at h
  · exact .inr (ihxcStep_refused h)
  · rcases makeMove_refused h with ⟨p, rfl, hr, hb⟩ | hport
    · exact .inl ⟨p, ms, hr, ha, hb⟩
    · exact .inr hport

/-- With an operation running a platform move has no step (70_reset_and_hazards.md R236). -/
theorem step_platform_busy {s : State} {p : PlatformMove} {ms : List Move} (ha : s.agenda = .platform p :: ms)
    (hb : s.status.busy = true) : step s = .refused .foreignAccess := by
  simp [step, agendaStep, ha, makeMove, platformMove, hb]

/-- Settles O32: a refused step is IHXC's at an unconnected port or the platform's while BUSY = 1. -/
theorem refusalsExactly : Obligations.RefusalsExactly := by
  refine ⟨fun s r h => ?_, fun s p ms => step_platform_busy⟩
  rcases step_refused h with hforeign | hport
  · exact .inl hforeign
  · right
    cases hport with
    | mem hu => exact .inl ⟨rfl, hu⟩
    | inp hu => exact .inr (.inl ⟨rfl, hu⟩)
    | out hu => exact .inr (.inr ⟨rfl, hu⟩)

/-! ## Reset -/

/-- Reset asserted by the host is one step, from any state (70_reset_and_hazards.md R230). -/
theorem step_reset {s : State} {ms : List Move} (h : s.agenda = .reset :: ms) :
    step s = .next (s.withAgenda ms).resetAsserted := by
  simp only [step, agendaStep, h, makeMove]

theorem statusBits_reset : statusBits Status.reset true = 0x00000200 := by decide

/-- With CK_ACC = 0 the reset STATUS reads as CKZ alone (10_state.md R38). -/
theorem State.statusWord_of_reset {s : State} (hst : s.status = Status.reset) (hck : s.ckAcc = 0) :
    s.statusWord = 0x00000200 := by
  rw [State.statusWord_of_ckAcc_zero hck, hst, statusBits_reset]

/-- CK_OUT follows CK_ACC = 0 (10_state.md R24). -/
theorem State.regValue_ckOut_of_ckAcc_zero {s : State} (h : s.ckAcc = 0) : s.regValue regCkOut = 0 := by
  simp [State.regValue_ckOut, h]

/-- Settles O27: the step is `State.resetAsserted`, which takes every piece of IHXC state from `State.reset`. -/
theorem resetValues : Obligations.ResetValues :=
  ⟨fun s ms ha => ⟨(s.withAgenda ms).resetAsserted, step_reset ha, State.statusWord_of_reset rfl rfl, rfl, rfl, rfl,
      State.regValue_ckOut_of_ckAcc_zero rfl, rfl, rfl, rfl, rfl, rfl, rfl⟩,
    State.statusWord_of_reset rfl rfl, rfl, rfl, rfl, rfl, rfl, rfl⟩

/-- Settles O28: reset leaves no operation and, as the last move, nothing on the agenda, and such a state survives. -/
theorem resetAbandonsTheOperation : Obligations.ResetAbandonsTheOperation := by
  intro s ha
  obtain ⟨survives, -⟩ := idleStateSurvives
  exact ⟨(s.withAgenda []).resetAsserted, step_reset ha, rfl, rfl, rfl, fun n => survives _ n rfl rfl⟩

end Sys2Proof.Machine
end

section
/-! Placing an instruction (assumption logs 3, 4): the word placed is decoded back in its own space, and the placed state's
next step is the write to CTRL or the parser's step at the last header digit. -/

namespace Sys2Proof

/-! ## The word decoded back -/

/-- A word of 32 bits reaches the decoder whole. -/
theorem decodeTableWord_toNat {w : Word} {i : Instr} (h : decodeWord w = .ok i) : decodeTableWord 32 w.toNat = some i := by
  have hw : BitVec.ofNat 32 (w.toNat % 2 ^ 32) = w := by rw [Nat.mod_eq_of_lt w.isLt, BitVec.ofNat_toNat, BitVec.setWidth_eq]
  rw [decodeTableWord, if_pos (le_refl 32), hw, h]

theorem decodeTableWord_command {i : Instr} (h : i.isCommand = true) : decodeTableWord 32 (encode i).toNat = some i :=
  decodeTableWord_toNat (by rw [decodeWord, decodeCommand_encode h])

/-- A record header is read as one where it is no command word (assumption log 4). -/
theorem decodeTableWord_header {i : Instr} {e : DecodeError} (h : i.isCommand = false)
    (hno : decodeCommand (encode i) = .error e) : decodeTableWord 32 (encode i).toNat = some i :=
  decodeTableWord_toNat (by rw [decodeWord, hno, decodeHeader_encode h])

end Sys2Proof

namespace Sys2Proof.Machine

/-! ## The state the word is placed in -/

theorem State.withFetchWord_command {i : Instr} (s : State) (h : i.isCommand = true) :
    s.withFetchWord 32 (encode i).toNat = placeCommand s (encode i) := by
  simp [State.withFetchWord, placeWord, decodeTableWord_command h, h]

theorem State.withFetchWord_header {i : Instr} {e : DecodeError} (s : State) (h : i.isCommand = false)
    (hno : decodeCommand (encode i) = .error e) : s.withFetchWord 32 (encode i).toNat = placeHeader s (encode i) := by
  simp [State.withFetchWord, placeWord, decodeTableWord_header h hno, h]

/-! ## The step from there -/

/-- The source of a placed header serves the last digit of TT, whatever draws it had before (10_state.md R37). -/
theorem placeHeader_consume (s : State) (h : Word) :
    (placeHeader s h).col.consume =
      .answer (.chr (digit (loNib (headerTt h))))
        ((placeHeader s h).col.took (digit (loNib (headerTt h))) s.col.inText []) :=
  rfl

/-- The digit served completes TT, and with LL and AAAA the header placed (42_parser.md R165). -/
theorem headerOf_placeHeader (s : State) (h : Word) :
    headerOf (placeHeader s h).prs.cnt (placeHeader s h).prs.addr
      (pairByte (placeHeader s h).prs.hi (loNib (headerTt h))) = h := by
  simp [placeHeader, headerOf_fields]

/-- A placed header's next step is the meaning of its record type, TT summed and the last digit of the header consumed. -/
theorem step_placeHeader {h : Word} {i : Instr} (s : State) (hdec : decodeHeader h = .ok i) :
    step (placeHeader s h) = exec i
      ((((placeHeader s h).withAgenda s.agenda).withCol
        ((placeHeader s h).col.took (digit (loNib (headerTt h))) s.col.inText [])).tookPair (headerTt h)) := by
  have htt : pairByte (placeHeader s h).prs.hi (loNib (headerTt h)) = headerTt h := pairByte_hiNib_loNib _
  have hstep := stepRunsTheRecordType (placeHeader s h) s.agenda _ _ _ i (.inl rfl) rfl rfl rfl rfl
    (placeHeader_consume s h) (hexval_digit _) (by rw [headerOf_placeHeader, hdec])
  rw [htt] at hstep
  exact hstep

/-- Settles O13: a command is placed as the host's next move, a header as the parser's last digit in phase TYPE. -/
theorem placedInstructionRunsNext : Obligations.PlacedInstructionRunsNext := by
  refine ⟨fun s i hi => ⟨decodeTableWord_command hi, ?_⟩, ?_⟩
  · rw [State.withFetchWord_command s hi, step_commandMove (s := placeCommand s (encode i)) hi rfl]
    rfl
  · rintro s i _ hi rfl hno
    refine ⟨decodeTableWord_header hi hno, ?_⟩
    rw [State.withFetchWord_header s hi hno, step_placeHeader s (decodeHeader_encode hi)]
    rfl

end Sys2Proof.Machine
end
